-- ==== Sys2Proof/Word.lean ====
section
/-! DEFINITION. The words the block handles: bytes, command and response words, pointer and count
registers (spec 00_scope.md R7, R9, R10, R14; 30_encoding.md R110, R116). -/

namespace Sys2Proof

/-- The data item, `DW = 8` (R7). -/
abbrev Byte := BitVec 8

/-- A command word on a port: twelve wires (R110). -/
abbrev Cmd := BitVec 12

/-- A response word: nineteen wires (R116). -/
abbrev RspWord := BitVec 19

/-- The carrier of a pointer register. A pointer of FIFO `f` has `PW_f = AW_f + 1` bits (R9), at most
sixteen; it stands in the low `PW_f` bits (DESIGN CHOICE, safe: notes/assumptions/13.md). -/
abbrev Ptr := BitVec 16

/-- A count field, `CW = 16` (R10). -/
abbrev Count := BitVec 16

end Sys2Proof
end

