-- ==== Sys2Proof/Syntax.lean ====
section
/-! DEFINITION. The syntax: the 32 commands of spec/opcode_table.json, and the steps that have no
encoding (spec 30_encoding.md R110 to R126). -/

namespace Sys2Proof

/-- The two command ports (10_state.md R33, R34). The port fixes the format of a word (R110, R123). -/
inductive Port where
  | app
  | ser
  deriving DecidableEq, Repr, Inhabited

/-- The commands, one constructor for each row of the opcode table. Every one keeps its byte field
`d8 = cmd[7:0]`; only `A_TX_ENQ` and `S_RX_ENQ` use it (R113, R114; notes/assumptions/12.md). -/
inductive Instr where
  /-- `A_NOP` (R151). -/
  | aNop (d8 : Byte)
  /-- `A_TX_ENQ` (R152). -/
  | aTxEnq (d8 : Byte)
  /-- `A_TX_COUNT` (R153). -/
  | aTxCount (d8 : Byte)
  /-- `A_TX_FULL` (R154). -/
  | aTxFull (d8 : Byte)
  /-- `A_RX_DEQ` (R155). -/
  | aRxDeq (d8 : Byte)
  /-- `A_RX_COUNT` (R156). -/
  | aRxCount (d8 : Byte)
  /-- `A_ERR_READ` (R157). -/
  | aErrRead (d8 : Byte)
  /-- `A_ERR_CLR` (R158). -/
  | aErrClr (d8 : Byte)
  /-- `A_RESERVED_8` (R159). -/
  | aReserved8 (d8 : Byte)
  /-- `A_RESERVED_9` (R159). -/
  | aReserved9 (d8 : Byte)
  /-- `A_RESERVED_A` (R159). -/
  | aReservedA (d8 : Byte)
  /-- `A_RESERVED_B` (R159). -/
  | aReservedB (d8 : Byte)
  /-- `A_RESERVED_C` (R159). -/
  | aReservedC (d8 : Byte)
  /-- `A_RESERVED_D` (R159). -/
  | aReservedD (d8 : Byte)
  /-- `A_RESERVED_E` (R159). -/
  | aReservedE (d8 : Byte)
  /-- `A_RESERVED_F` (R159). -/
  | aReservedF (d8 : Byte)
  /-- `S_NOP` (R205). -/
  | sNop (d8 : Byte)
  /-- `S_ISR` (R204). -/
  | sIsr (d8 : Byte)
  /-- `S_TX_DEQ` (R206). -/
  | sTxDeq (d8 : Byte)
  /-- `S_RX_ENQ` (R207). -/
  | sRxEnq (d8 : Byte)
  /-- `S_TX_COUNT` (R208). -/
  | sTxCount (d8 : Byte)
  /-- `S_TX_FULL` (R209). -/
  | sTxFull (d8 : Byte)
  /-- `S_RESERVED_6` (R210). -/
  | sReserved6 (d8 : Byte)
  /-- `S_RESERVED_7` (R210). -/
  | sReserved7 (d8 : Byte)
  /-- `S_RESERVED_8` (R210). -/
  | sReserved8 (d8 : Byte)
  /-- `S_RESERVED_9` (R210). -/
  | sReserved9 (d8 : Byte)
  /-- `S_RESERVED_A` (R210). -/
  | sReservedA (d8 : Byte)
  /-- `S_RESERVED_B` (R210). -/
  | sReservedB (d8 : Byte)
  /-- `S_RESERVED_C` (R210). -/
  | sReservedC (d8 : Byte)
  /-- `S_RESERVED_D` (R210). -/
  | sReservedD (d8 : Byte)
  /-- `S_RESERVED_E` (R210). -/
  | sReservedE (d8 : Byte)
  /-- `S_RESERVED_F` (R210). -/
  | sReservedF (d8 : Byte)
  deriving DecidableEq, Repr, Inhabited

/-- The two FIFO instances (10_state.md R36). -/
inductive FifoId where
  | tx
  | rx
  deriving DecidableEq, Repr, Inhabited

/-- The internal steps of 42_cdc_steps.md (R265). A synchroniser step carries its draw `v` as the
binary value that 30_encoding.md R124 writes. -/
inductive InternalStep where
  /-- `W_PUB f` (R251). -/
  | wPub (f : FifoId)
  /-- `R_PUB f` (R252). -/
  | rPub (f : FifoId)
  /-- `SYNC_R2W f v` (R253). -/
  | syncR2W (f : FifoId) (v : Nat)
  /-- `SYNC_W2R f v` (R254). -/
  | syncW2R (f : FifoId) (v : Nat)
  /-- `CAPTURE f` (R257). -/
  | capture (f : FifoId)
  /-- `ACK_SYNC f` (R258). -/
  | ackSync (f : FifoId)
  /-- `ERR_RX_SYNC` (R259). -/
  | errRxSync
  /-- `EC_REQ_SYNC` (R260). -/
  | ecReqSync
  /-- `EC_ACK_SYNC` (R261). -/
  | ecAckSync
  deriving DecidableEq, Repr, Inhabited

/-- One atomic transition of one agent (00_scope.md R17), as the environment schedules it. An event
whose enabling condition is false takes no step (notes/assumptions/2.md). -/
inductive Event where
  /-- `a_valid = 1` with the word on `a_cmd` (R33, R118). -/
  | appCmd (w : Cmd)
  /-- A cycle of the APP port with `a_valid = 0` (R118; notes/assumptions/9.md). -/
  | appIdle
  /-- `s_valid = 1` with the word on `s_cmd` (R34, R118). -/
  | serCmd (w : Cmd)
  /-- A cycle of the SER port in which no command is accepted (R118; notes/assumptions/9.md). -/
  | serIdle
  /-- A turn of the AUTO dispatcher (41_serial_port.md R211). -/
  | dispatch
  /-- An internal step (42_cdc_steps.md). -/
  | internal (k : InternalStep)
  /-- `P_TXC` (60_exceptions.md R313). -/
  | periphTxc
  /-- `P_RXA b` (60_exceptions.md R314). -/
  | periphRxa (b : Byte)
  /-- The reset inputs take the levels `rst_a_n`, `rst_s_n` (70_reset_and_hazards.md R350). -/
  | resetPins (rstAN rstSN : Bool)
  deriving DecidableEq, Repr, Inhabited

end Sys2Proof
end

