-- ==== Sys2Proof/Config.lean ====
section
/-! DEFINITION. What an implementation fixes (spec 00_scope.md R8 to R12, 60_exceptions.md R314), and the
free values: constants without a body, of which nothing can be proved. -/

namespace Sys2Proof

/-- The source of serial commands (R12). -/
inductive SerCmdMode where
  | auto
  | external
  deriving DecidableEq, Repr, Inhabited

/-- What the reference peripheral does with a byte that arrives while one waits (60_exceptions.md R314). -/
inductive RxOvrPolicy where
  | keepOld
  | takeNew
  deriving DecidableEq, Repr, Inhabited

/-- The parameters of one build. Each capacity is `2^AW` with `AW` in 0..15 (R8). -/
structure Config where
  awTx : Fin 16
  awRx : Fin 16
  serCmdMode : SerCmdMode
  rxOvrPolicy : RxOvrPolicy
  syncStages : Nat
  deriving DecidableEq, Repr

/-- The configuration of `State.reset`: AUTO, KEEP_OLD and two stages are the spec's defaults (R11, R12,
R314); the spec gives the address widths no default, and 2 and 1 (capacities 4 and 2) are the model's
(DESIGN CHOICE, unsafe for a claim about `State.reset` alone: notes/assumptions/1.md). -/
def Config.default : Config :=
  { awTx := 2, awRx := 1, serCmdMode := .auto, rxOvrPolicy := .keepOld, syncStages := 2 }

/-- Free value: what the environment does next where nothing is scheduled (R17; U11). The argument
counts the choices made (notes/assumptions/3.md). -/
opaque Config.freeEvent : Nat → Event

/-- Free value: `EOL_SEQ`, the bytes of a line terminator, OPEN in 30_encoding.md R125 (notes/assumptions/16.md). -/
opaque Config.eolSeq : List Byte

/-- Free value: `DEC_FORMAT`, the decimal text of an integer, OPEN in 30_encoding.md R125 (notes/assumptions/16.md). -/
opaque Config.decFormat : Int → List Byte

end Sys2Proof
end

