-- ==== Sys2Proof/WellFormed.lean ====
section
/-! DEFINITION. What is well formed: an instruction on a port, a draw for a configuration, and a
configuration (spec 00_scope.md R8, R11; 30_encoding.md R110, R112; 42_cdc_steps.md R253). -/

namespace Sys2Proof

/-- The port whose format an instruction belongs to (R110 to R112). -/
def Instr.port : Instr → Port
  | .aNop _ => .app
  | .aTxEnq _ => .app
  | .aTxCount _ => .app
  | .aTxFull _ => .app
  | .aRxDeq _ => .app
  | .aRxCount _ => .app
  | .aErrRead _ => .app
  | .aErrClr _ => .app
  | .aReserved8 _ => .app
  | .aReserved9 _ => .app
  | .aReservedA _ => .app
  | .aReservedB _ => .app
  | .aReservedC _ => .app
  | .aReservedD _ => .app
  | .aReservedE _ => .app
  | .aReservedF _ => .app
  | .sNop _ => .ser
  | .sIsr _ => .ser
  | .sTxDeq _ => .ser
  | .sRxEnq _ => .ser
  | .sTxCount _ => .ser
  | .sTxFull _ => .ser
  | .sReserved6 _ => .ser
  | .sReserved7 _ => .ser
  | .sReserved8 _ => .ser
  | .sReserved9 _ => .ser
  | .sReservedA _ => .ser
  | .sReservedB _ => .ser
  | .sReservedC _ => .ser
  | .sReservedD _ => .ser
  | .sReservedE _ => .ser
  | .sReservedF _ => .ser

/-- An instruction is well formed on the port whose format it belongs to, and on no other: a word on
one port is never decoded as the other port's format (R110). -/
def Instr.wellFormedOn (p : Port) (i : Instr) : Bool := i.port == p

/-- A draw names a pointer value of its FIFO, that is one below `2^PW_f` (R253, R254). -/
def InternalStep.wellFormed (c : Config) : InternalStep → Bool
  | .syncR2W .tx v | .syncW2R .tx v => decide (v < 2 ^ (c.awTx.val + 1))
  | .syncR2W .rx v | .syncW2R .rx v => decide (v < 2 ^ (c.awRx.val + 1))
  | .wPub _ | .rPub _ | .capture _ | .ackSync _ | .errRxSync | .ecReqSync | .ecAckSync => true

/-- A configuration has at least two synchroniser stages (R11). Its capacities are powers of two up to
`2^15` by their type (R8). -/
def Config.wellFormed (c : Config) : Bool := decide (2 ≤ c.syncStages)

end Sys2Proof
end

