-- ==== Sys2Proof/Decode.lean ====
section
/-! DEFINITION. The decoder and the encoder (spec 30_encoding.md R110 to R115, R123; opcode_table.json). -/

namespace Sys2Proof

/-- `d8 = cmd[7:0]` (R110, R113). -/
def byteField (w : Cmd) : Byte := w.extractLsb' 0 8

/-- `op = cmd[11:8]` (R110). -/
def opField (w : Cmd) : BitVec 4 := w.extractLsb' 8 4

/-- Format A (R111): the four bits of the operation code, bit 11 first. -/
def decodeA (w : Cmd) : Instr :=
  let d := byteField w
  match w.getLsbD 11, w.getLsbD 10, w.getLsbD 9, w.getLsbD 8 with
  | false, false, false, false => .aNop d
  | false, false, false, true => .aTxEnq d
  | false, false, true, false => .aTxCount d
  | false, false, true, true => .aTxFull d
  | false, true, false, false => .aRxDeq d
  | false, true, false, true => .aRxCount d
  | false, true, true, false => .aErrRead d
  | false, true, true, true => .aErrClr d
  | true, false, false, false => .aReserved8 d
  | true, false, false, true => .aReserved9 d
  | true, false, true, false => .aReservedA d
  | true, false, true, true => .aReservedB d
  | true, true, false, false => .aReservedC d
  | true, true, false, true => .aReservedD d
  | true, true, true, false => .aReservedE d
  | true, true, true, true => .aReservedF d

/-- Format S (R112): the four bits of the operation code, bit 11 first. -/
def decodeS (w : Cmd) : Instr :=
  let d := byteField w
  match w.getLsbD 11, w.getLsbD 10, w.getLsbD 9, w.getLsbD 8 with
  | false, false, false, false => .sNop d
  | false, false, false, true => .sIsr d
  | false, false, true, false => .sTxDeq d
  | false, false, true, true => .sRxEnq d
  | false, true, false, false => .sTxCount d
  | false, true, false, true => .sTxFull d
  | false, true, true, false => .sReserved6 d
  | false, true, true, true => .sReserved7 d
  | true, false, false, false => .sReserved8 d
  | true, false, false, true => .sReserved9 d
  | true, false, true, false => .sReservedA d
  | true, false, true, true => .sReservedB d
  | true, true, false, false => .sReservedC d
  | true, true, false, true => .sReservedD d
  | true, true, true, false => .sReservedE d
  | true, true, true, true => .sReservedF d

/-- The instruction a port reads from its twelve wires. Every word of a port is a command or a
reserved code of that port (R111, R112, R115), so decoding twelve bits never fails. -/
def decode (p : Port) (w : Cmd) : Instr :=
  match p with
  | .app => decodeA w
  | .ser => decodeS w

/-- Why a number is not a word of a command port. -/
inductive DecodeError where
  /-- The number has a bit at or above the width it was said to have. Safe: no such word exists. -/
  | widerThanStated
  /-- The number has a bit above the twelve of a command word (R110, R123). Safe: no such wire exists. -/
  | wiresAboveTheCommand
  deriving DecidableEq, Repr

/-- A number of `nbits` bits read as a word of port `p`: rejected by name unless it fits twelve wires. -/
def decodeNumber (p : Port) (nbits w : Nat) : Except DecodeError Instr :=
  if 2 ^ nbits ≤ w then .error .widerThanStated
  else if 2 ^ 12 ≤ w then .error .wiresAboveTheCommand
  else .ok (decode p (BitVec.ofNat 12 w))

/-- The port that a number of the opcode table is meant for. The two formats share all their words
(R110), so bit 12, which no command has, names the port: clear for APP, set for SER (DESIGN CHOICE,
notes/assumptions/5.md). -/
def tableWordPort (w : Nat) : Port :=
  if w / 2 ^ 12 = 1 then .ser else .app

/-- The twelve wires of a number of the opcode table, without the port bit (notes/assumptions/5.md). -/
def tableWordCmd (w : Nat) : Nat :=
  if w / 2 ^ 12 = 1 then w - 2 ^ 12 else w

/-- The instruction that the decoder reads from a number of the opcode table: format A for the words
of the table, format S where bit 12 is set (notes/assumptions/5.md). -/
def decodeTableWord (nbits w : Nat) : Option Instr :=
  if 2 ^ nbits ≤ w then none
  else
    match decodeNumber (tableWordPort w) nbits (tableWordCmd w) with
    | .ok i => some i
    | .error _ => none

/-- The operation code of an instruction on its own port (R111, R112). -/
def opcodeOf (i : Instr) : BitVec 4 :=
  match i with
  | .aNop _ => 0x0#4
  | .aTxEnq _ => 0x1#4
  | .aTxCount _ => 0x2#4
  | .aTxFull _ => 0x3#4
  | .aRxDeq _ => 0x4#4
  | .aRxCount _ => 0x5#4
  | .aErrRead _ => 0x6#4
  | .aErrClr _ => 0x7#4
  | .aReserved8 _ => 0x8#4
  | .aReserved9 _ => 0x9#4
  | .aReservedA _ => 0xA#4
  | .aReservedB _ => 0xB#4
  | .aReservedC _ => 0xC#4
  | .aReservedD _ => 0xD#4
  | .aReservedE _ => 0xE#4
  | .aReservedF _ => 0xF#4
  | .sNop _ => 0x0#4
  | .sIsr _ => 0x1#4
  | .sTxDeq _ => 0x2#4
  | .sRxEnq _ => 0x3#4
  | .sTxCount _ => 0x4#4
  | .sTxFull _ => 0x5#4
  | .sReserved6 _ => 0x6#4
  | .sReserved7 _ => 0x7#4
  | .sReserved8 _ => 0x8#4
  | .sReserved9 _ => 0x9#4
  | .sReservedA _ => 0xA#4
  | .sReservedB _ => 0xB#4
  | .sReservedC _ => 0xC#4
  | .sReservedD _ => 0xD#4
  | .sReservedE _ => 0xE#4
  | .sReservedF _ => 0xF#4

/-- The byte field of an instruction (R113). -/
def byteOf (i : Instr) : Byte :=
  match i with
  | .aNop d => d
  | .aTxEnq d => d
  | .aTxCount d => d
  | .aTxFull d => d
  | .aRxDeq d => d
  | .aRxCount d => d
  | .aErrRead d => d
  | .aErrClr d => d
  | .aReserved8 d => d
  | .aReserved9 d => d
  | .aReservedA d => d
  | .aReservedB d => d
  | .aReservedC d => d
  | .aReservedD d => d
  | .aReservedE d => d
  | .aReservedF d => d
  | .sNop d => d
  | .sIsr d => d
  | .sTxDeq d => d
  | .sRxEnq d => d
  | .sTxCount d => d
  | .sTxFull d => d
  | .sReserved6 d => d
  | .sReserved7 d => d
  | .sReserved8 d => d
  | .sReserved9 d => d
  | .sReservedA d => d
  | .sReservedB d => d
  | .sReservedC d => d
  | .sReservedD d => d
  | .sReservedE d => d
  | .sReservedF d => d

/-- The command word of an instruction: op then d8 (R110, R124). -/
def encode (i : Instr) : Cmd := opcodeOf i ++ byteOf i

end Sys2Proof
end

