-- ==== Sys2Proof/Machine/State.lean ====
section
/-! DEFINITION. The state: every register, array and port level the spec names (10_state.md R33 to R48;
60_exceptions.md R312; 30_encoding.md R118), the parameters, and the model's own schedule of events. -/

namespace Sys2Proof.Machine

/-- Storage: (slot, byte) cells in canonical form, see `Memory.wf`. -/
abbrev Memory := List Host.Cell

/-- One FIFO instance (R36). The first group is written by the write domain only, the second by the read
domain only (R37, R38); `mem` is written by the write domain and read by the read domain (R39). -/
structure Fifo where
  /-- `AW_f`, fixed at construction (00_scope.md R8). -/
  aw : Fin 16
  /-- Local write pointer. -/
  wptr : Ptr
  /-- Published write pointer; its gray output is `Fifo.wgray`. -/
  wpub : Ptr
  /-- Gray-coded view of the published read pointer. -/
  rq : Ptr
  /-- Flush request toggle. -/
  flReq : Bool
  /-- Write position up to which the outstanding flush discards. -/
  flMark : Ptr
  /-- A further flush was requested while one was outstanding. -/
  flPend : Bool
  /-- Write position of the further flush. -/
  flNext : Ptr
  /-- View of `flAck` in the write domain. -/
  fa : Bool
  /-- Local read pointer. -/
  rhead : Ptr
  /-- Published read pointer; its gray output is `Fifo.rgray`. -/
  rpub : Ptr
  /-- Gray-coded view of the published write pointer. -/
  wq : Ptr
  /-- View of `flReq` in the read domain. -/
  fr : Bool
  /-- Flush acknowledge toggle. -/
  flAck : Bool
  /-- Bytes before `target` are still to be skipped. -/
  drain : Bool
  /-- The captured flush mark. -/
  target : Ptr
  /-- The storage of `C_f` slots. -/
  mem : Memory
  deriving DecidableEq, Repr

/-- The response registers of one port (R47). -/
structure Response where
  val : Count
  f0 : Bool
  f1 : Bool
  ill : Bool
  deriving DecidableEq, Repr

/-- The strobes raised by the last step (R35): `pWr` holds `p_wdata` where `p_wr` was raised. They are up
only in an `S_ISR` step (notes/assumptions/10.md). -/
structure Strobes where
  pWr : Option Byte
  pRd : Bool
  pClrRxne : Bool
  deriving DecidableEq, Repr

/-- The reference peripheral (60_exceptions.md R312). -/
structure Periph where
  txe : Bool
  tdr : Byte
  rxne : Bool
  rdr : Byte
  ore : Bool
  lineOut : List Byte
  lineIn : List Byte
  deriving DecidableEq, Repr

/-- The whole machine. -/
structure State where
  txf : Fifo
  rxf : Fifo
  /-- Transmit-empty interrupt enable (R43). -/
  armed : Bool
  /-- Error latches and the APP view of the RX latch (R44). -/
  errTx : Bool
  errRx : Bool
  errRxQ : Bool
  /-- Error-clear handshake (R45). -/
  ecReq : Bool
  ecPend : Bool
  ecReqQ : Bool
  ecAck : Bool
  ecAckQ : Bool
  /-- Response registers of the two ports (R47) and their valid outputs (R33, R34, R118). -/
  aRsp : Response
  aRspValid : Bool
  sRsp : Response
  sRspValid : Bool
  /-- Peripheral strobes of the last step (R35). -/
  strobes : Strobes
  /-- The reference peripheral (60_exceptions.md R312). -/
  periph : Periph
  /-- Levels of the active-low reset inputs (R33, R34; 70_reset_and_hazards.md R350). -/
  rstAN : Bool
  rstSN : Bool
  /-- Parameters that no step changes (00_scope.md R11, R12; 60_exceptions.md R314). -/
  serMode : SerCmdMode
  ovrPolicy : RxOvrPolicy
  syncStages : Nat
  /-- The model's own: the events to come, oldest first (notes/assumptions/2.md). -/
  pending : List Event
  /-- The model's own: how many free choices the environment has made (notes/assumptions/3.md). -/
  drawn : Nat
  deriving DecidableEq, Repr

/-- No fault exists: "No behaviour of the block is `fault`: the block has no trap"
(93_implementation_defined.md; 60_exceptions.md R300; notes/assumptions/26.md). -/
inductive Fault
  deriving DecidableEq, Repr

/-- Why the machine has no transition. -/
inductive Refusal where
  /-- Raised by an arm of `exec` for an instruction without a meaning; no arm raises it. Safe. -/
  | notModelled (mnemonic : String)
  /-- Raised by a change of the reset inputs that asserts one of them alone while the block runs: "Partial
  reset is refused" (70_reset_and_hazards.md R351). Safe: the spec makes no claim of such a run. -/
  | partialReset
  deriving DecidableEq, Repr

/-- A FIFO after reset (R48). Its storage is U there and reads as 0 here (notes/assumptions/6.md). -/
def Fifo.reset (aw : Fin 16) : Fifo :=
  { aw := aw, wptr := 0, wpub := 0, rq := 0, flReq := false, flMark := 0, flPend := false, flNext := 0,
    fa := false, rhead := 0, rpub := 0, wq := 0, fr := false, flAck := false, drain := false, target := 0,
    mem := [] }

/-- Response registers after reset (R48). -/
def Response.reset : Response := { val := 0, f0 := false, f1 := false, ill := false }

/-- No strobe is up (R35). -/
def Strobes.none : Strobes := { pWr := Option.none, pRd := false, pClrRxne := false }

/-- The reference peripheral after reset (R312). `tdr` and `rdr` are U there (notes/assumptions/7.md). -/
def Periph.reset : Periph :=
  { txe := true, tdr := 0, rxne := false, rdr := 0, ore := false, lineOut := [], lineIn := [] }

/-- The machine of a configuration, right after reset with both resets released (R48, R350). -/
def State.ofConfig (c : Config) : State :=
  { txf := Fifo.reset c.awTx, rxf := Fifo.reset c.awRx, armed := false,
    errTx := false, errRx := false, errRxQ := false,
    ecReq := false, ecPend := false, ecReqQ := false, ecAck := false, ecAckQ := false,
    aRsp := Response.reset, aRspValid := false, sRsp := Response.reset, sRspValid := false,
    strobes := Strobes.none, periph := Periph.reset, rstAN := true, rstSN := true,
    serMode := c.serCmdMode, ovrPolicy := c.rxOvrPolicy, syncStages := c.syncStages,
    pending := [], drawn := 0 }

/-- The machine right after reset, in the model's default configuration (notes/assumptions/1.md). -/
def State.reset : State := State.ofConfig Config.default

/-- The parameters a state was built with. -/
def State.config (s : State) : Config :=
  { awTx := s.txf.aw, awRx := s.rxf.aw, serCmdMode := s.serMode, rxOvrPolicy := s.ovrPolicy,
    syncStages := s.syncStages }

/-- FIFO instance `f` (R36). -/
def State.fifo (s : State) : FifoId → Fifo
  | .tx => s.txf
  | .rx => s.rxf

/-- Replace FIFO instance `f`. -/
def State.setFifo (s : State) (f : FifoId) (x : Fifo) : State :=
  match f with
  | .tx => { s with txf := x }
  | .rx => { s with rxf := x }

end Sys2Proof.Machine
end

