-- ==== Sys2Proof/Machine/Operands.lean ====
section
/-! DEFINITION. Pointer arithmetic, slots, gray code and draws (spec 00_scope.md R15, R16;
30_encoding.md R119 to R122; 42_cdc_steps.md R253). -/

namespace Sys2Proof.Machine

/-- `M_f = 2^PW_f` (R15). -/
def ptrModulus (aw : Nat) : Nat := 2 ^ (aw + 1)

/-- `C_f = 2^AW_f` (R8). -/
def slotCount (aw : Nat) : Nat := 2 ^ aw

/-- `p +1`, modulo `M_f` (R15). -/
def ptrSucc (aw : Nat) (p : Ptr) : Ptr := BitVec.ofNat 16 ((p.toNat + 1) % ptrModulus aw)

/-- `k` increments of `p` (R15). -/
def ptrAdd (aw : Nat) (p : Ptr) (k : Nat) : Ptr := BitVec.ofNat 16 ((p.toNat + k) % ptrModulus aw)

/-- `dist_f(a, b) = (a - b) mod M_f` (R15). -/
def dist (aw : Nat) (a b : Ptr) : Nat :=
  (a.toNat + (ptrModulus aw - b.toNat % ptrModulus aw)) % ptrModulus aw

/-- `slot_f(p) = p mod C_f`, the low `AW_f` bits (R15, R122). -/
def slotOf (aw : Nat) (p : Ptr) : Nat := p.toNat % slotCount aw

/-- `gray(b) = b XOR (b >> 1)` (R16). -/
def gray (b : Ptr) : Ptr := b ^^^ (b >>> 1)

/-- `k` rounds of `b[i] = b[i+1] XOR g[i]` from `b = g`: the highest `k + 1` of the sixteen bits are then decoded. -/
def ungrayRounds : Nat → Ptr → Ptr
  | 0, g => g
  | k + 1, g => g ^^^ (ungrayRounds k g >>> 1)

/-- The inverse of `gray` (R16): fifteen rounds decode sixteen bits. -/
def ungray (g : Ptr) : Ptr := ungrayRounds 15 g

/-- A pointer value of the FIFO: below `M_f` (R9). -/
def inRange (aw : Nat) (p : Ptr) : Bool := decide (p.toNat < ptrModulus aw)

/-- The draws a synchroniser admits: `1 <= dist(v, view) <= dist(pub, view)` for a pointer value `v`
(R253, R254; U10). -/
def drawAdmitted (aw : Nat) (v : Nat) (view pub : Ptr) : Bool :=
  decide (v < ptrModulus aw) && decide (1 ≤ dist aw (BitVec.ofNat 16 v) view) &&
    decide (dist aw (BitVec.ofNat 16 v) view ≤ dist aw pub view)

/-- `zext_16` of a byte (R14, R116). -/
def zextByte (b : Byte) : Count := b.zeroExtend 16

/-- A count as a port returns it: sixteen bits (R10, R116). -/
def countField (n : Nat) : Count := BitVec.ofNat 16 n

/-- The byte of a result that may be absent: 0 where it is (R117). -/
def byteOrZero (o : Option Byte) : Byte := o.getD 0

end Sys2Proof.Machine
end

