-- ==== Sys2Proof/Machine/Flags.lean ====
section
/-! DEFINITION. The derived quantities: occupancy, full and empty, publish limit, pending conditions, the
interrupt condition, the error flag, and the output ports (spec 10_state.md R33 to R46; 41_serial_port.md
R201; 60_exceptions.md R306). -/

namespace Sys2Proof.Machine

/-- `C_f` (R8). -/
def Fifo.capacity (f : Fifo) : Nat := slotCount f.aw

/-- `f.wgray` (R37, R250). -/
def Fifo.wgray (f : Fifo) : Ptr := gray f.wpub

/-- `f.rgray` (R38, R250). -/
def Fifo.rgray (f : Fifo) : Ptr := gray f.rpub

/-- `f.rqb = ungray(f.rq)` (R37). -/
def Fifo.rqb (f : Fifo) : Ptr := ungray f.rq

/-- `f.wqb = ungray(f.wq)` (R38). -/
def Fifo.wqb (f : Fifo) : Ptr := ungray f.wq

/-- Write-domain occupancy (R40). -/
def Fifo.wcount (f : Fifo) : Nat := dist f.aw f.wptr f.rqb

/-- The producer's view of full (R40). -/
def Fifo.wfull (f : Fifo) : Bool := f.wcount == f.capacity

/-- Read-domain occupancy (R41). -/
def Fifo.rcount (f : Fifo) : Nat := if f.drain then 0 else dist f.aw f.wqb f.rhead

/-- The consumer's view of empty (R41). -/
def Fifo.rempty (f : Fifo) : Bool := f.rcount == 0

/-- The consumer's view of full (R41). -/
def Fifo.rfull (f : Fifo) : Bool := f.rcount == f.capacity

/-- A flush is outstanding (R42). -/
def Fifo.flushOutstanding (f : Fifo) : Bool := f.flReq != f.fa

/-- Publish limit (R42). -/
def Fifo.lim (f : Fifo) : Ptr := if f.flushOutstanding then f.flMark else f.wptr

/-- `txp = p_txe AND armed` (R201). -/
def State.txp (s : State) : Bool := s.periph.txe && s.armed

/-- `rxp = p_rxne` (R201). -/
def State.rxp (s : State) : Bool := s.periph.rxne

/-- `irq = txp OR rxp` (R306). -/
def State.irq (s : State) : Bool := s.txp || s.rxp

/-- `err = err_tx OR err_rx_q` (R46). -/
def State.err (s : State) : Bool := s.errTx || s.errRxQ

/-- The block is held in reset while either input is 0 (R350). -/
def State.inReset (s : State) : Bool := !(s.rstAN && s.rstSN)

/-- The response word (R116): `{ill, f1, f0, val}`. -/
def Response.pack (r : Response) : RspWord :=
  (BitVec.ofBool r.ill ++ BitVec.ofBool r.f1 ++ BitVec.ofBool r.f0 ++ r.val : BitVec (1 + 1 + 1 + 16))

/-- The output ports (R33 to R35). -/
structure Outputs where
  aRsp : RspWord
  aRspValid : Bool
  aErr : Bool
  sRsp : RspWord
  sRspValid : Bool
  pWr : Bool
  pWdata : Option Byte
  pRd : Bool
  pClrRxne : Bool
  pTxeie : Bool
  irq : Bool
  deriving DecidableEq, Repr

/-- What the output ports show in a state (R33 to R35, R43, R46, R116, R306). -/
def State.outputs (s : State) : Outputs :=
  { aRsp := s.aRsp.pack, aRspValid := s.aRspValid, aErr := s.err,
    sRsp := s.sRsp.pack, sRspValid := s.sRspValid,
    pWr := s.strobes.pWr.isSome, pWdata := s.strobes.pWr, pRd := s.strobes.pRd,
    pClrRxne := s.strobes.pClrRxne, pTxeie := s.armed, irq := s.irq }

end Sys2Proof.Machine
end

