-- ==== Sys2Proof/Machine/Ops.lean ====
section
/-! DEFINITION. The named operations over storage, FIFOs, response registers and the peripheral strobes
(spec 10_state.md R39, R47; 40_app_port.md R152, R155; 41_serial_port.md R202, R203; 42_cdc_steps.md R255,
R256; 60_exceptions.md R315). The block takes no exception and returns from none (60_exceptions.md R300,
R309): what an error does is `Fifo.flushReq` with a sticky flag, and interrupt entry is `execSIsr`. -/

namespace Sys2Proof.Machine

/-! ### Storage (R39) -/

/-- What a slot that nothing has written reads as: U in R48, 0 here (DESIGN CHOICE, unsafe:
notes/assumptions/6.md; R352 says that no U value is ever read from a reachable state). -/
def Memory.unwritten : Byte := 0

/-- `MemRead(f, s)` (R18, R39). -/
def Memory.read : Memory → Nat → Byte
  | [], _ => Memory.unwritten
  | (k, v) :: m, a => if k = a then v else Memory.read m a

/-- `MemWrite(f, s, v)` (R18, R39), keeping the canonical form. -/
def Memory.write : Memory → Nat → Byte → Memory
  | [], a, b => if b = Memory.unwritten then [] else [(a, b)]
  | (k, v) :: m, a, b =>
    if a < k then (if b = Memory.unwritten then (k, v) :: m else (a, b) :: (k, v) :: m)
    else if a = k then (if b = Memory.unwritten then m else (a, b) :: m)
    else (k, v) :: Memory.write m a b

/-- Canonical form: slots strictly rise, and no entry equals what an unlisted slot reads as. -/
abbrev Memory.wf (m : Memory) : Prop :=
  m.Pairwise (fun c d => c.1 < d.1) ∧ ∀ c ∈ m, c.2 ≠ Memory.unwritten

/-- The byte at position `p` of FIFO `f`. -/
def Fifo.byteAt (f : Fifo) (p : Ptr) : Byte := f.mem.read (slotOf f.aw p)

/-- The bytes at positions `f.rhead .. f.wptr - 1`, oldest first (20_memory.md R98). -/
def Fifo.contents (f : Fifo) : List Byte :=
  (List.range (dist f.aw f.wptr f.rhead)).map fun k => f.byteAt (ptrAdd f.aw f.rhead k)

/-! ### FIFO ends -/

/-- The write end accepts a byte: one storage write and one increment in one step (R83, R152, R203). -/
def Fifo.push (f : Fifo) (b : Byte) : Fifo :=
  { f with mem := f.mem.write (slotOf f.aw f.wptr) b, wptr := ptrSucc f.aw f.wptr }

/-- The read end takes the byte at `f.rhead`; it is used only where `f.rcount` is not 0 (R155, R202; U1). -/
def Fifo.pop (f : Fifo) : Fifo := { f with rhead := ptrSucc f.aw f.rhead }

/-- `FLUSH_REQ(f)` (R256). -/
def Fifo.flushReq (f : Fifo) : Fifo :=
  if f.flushOutstanding then { f with flNext := f.wptr, flPend := true }
  else { f with flMark := f.wptr, flReq := !f.flReq }

/-- `ADVANCE(f)` (R255). -/
def Fifo.advance (f : Fifo) : Fifo :=
  if dist f.aw f.target f.rhead ≤ dist f.aw f.wqb f.rhead then { f with rhead := f.target, drain := false }
  else { f with rhead := f.wqb }

/-! ### Response registers (R47, R118) -/

/-- `rsp(val, f0, f1, ill)` on the APP port (R18, R47). -/
def State.rspA (s : State) (val : Count) (f0 f1 ill : Bool) : State :=
  { s with aRsp := { val := val, f0 := f0, f1 := f1, ill := ill }, aRspValid := true }

/-- `rsp(val, f0, f1, ill)` on the SER port (R18, R47). -/
def State.rspS (s : State) (val : Count) (f0 f1 ill : Bool) : State :=
  { s with sRsp := { val := val, f0 := f0, f1 := f1, ill := ill }, sRspValid := true }

/-! ### The four FIFO operations of the channel -/

/-- `tx_enqueue`: false where the byte was dropped by an overflow (R152, R301). -/
def State.txEnq (s : State) (b : Byte) : Bool × State :=
  if s.txf.wfull then (false, { s with txf := s.txf.flushReq, errTx := true })
  else (true, { s with txf := s.txf.push b })

/-- `TXDEQ()`: absent where the view is empty, and then it disarms (R202, R305). -/
def State.txDeq (s : State) : Option Byte × State :=
  if s.txf.rempty then (none, { s with armed := false })
  else (some (s.txf.byteAt s.txf.rhead), { s with txf := s.txf.pop })

/-- `RXENQ(b)`: false where the byte was dropped by an overflow (R203, R302). -/
def State.rxEnq (s : State) (b : Byte) : Bool × State :=
  if s.rxf.wfull then (false, { s with rxf := s.rxf.flushReq, errRx := true })
  else (true, { s with rxf := s.rxf.push b })

/-- `rx_dequeue` (R155). -/
def State.rxDeq (s : State) : Option Byte × State :=
  if s.rxf.rempty then (none, s)
  else (some (s.rxf.byteAt s.rxf.rhead), { s with rxf := s.rxf.pop })

/-! ### Peripheral Adapter calls, with the peripheral's reaction in the same step (R35, R315) -/

/-- The peripheral's side of `write_data(b)`: it takes the byte and is no longer empty (R315, R316 a). -/
def Periph.writeData (p : Periph) (b : Byte) : Periph := { p with tdr := b, txe := false }

/-- The peripheral's side of `read_data()`: the received byte; the peripheral does not change (R315, R316 d). -/
def Periph.readData (p : Periph) : Byte := p.rdr

/-- The peripheral's side of `clear_pending(receive-not-empty)` (R315, R316 b). -/
def Periph.clearRxne (p : Periph) : Periph := { p with rxne := false }

/-- `periph.write_data(b)`: `p_wr` with `p_wdata = b`; the peripheral takes it and is no longer empty. -/
def State.writeData (s : State) (b : Byte) : State :=
  { s with strobes := { s.strobes with pWr := some b }, periph := s.periph.writeData b }

/-- `periph.read_data()`: `p_rd`; the byte is `rdr` and the peripheral does not change. -/
def State.readData (s : State) : Byte × State :=
  (s.periph.readData, { s with strobes := { s.strobes with pRd := true } })

/-- `periph.clear_pending(RXNE)`: `p_clr_rxne`. -/
def State.clearRxne (s : State) : State :=
  { s with strobes := { s.strobes with pClrRxne := true }, periph := s.periph.clearRxne }

/-- The strobes of the last step fall (R35; notes/assumptions/10.md). -/
def State.strobesDown (s : State) : State := { s with strobes := Strobes.none }

/-- Check 1 of `S_ISR`: dequeue, and send what was there (R204). -/
def State.serveTx (s : State) : Option Byte × State :=
  match s.txDeq with
  | (none, t) => (none, t)
  | (some b, t) => (some b, t.writeData b)

/-- Check 2 of `S_ISR`: read the received byte, enqueue it, clear the pending condition (R204). -/
def State.serveRx (s : State) : Option Byte × State :=
  let (b, t) := s.readData
  (some b, (t.rxEnq b).2.clearRxne)

end Sys2Proof.Machine
end

