-- ==== Sys2Proof/Machine/Cdc.lean ====
section
/-! DEFINITION. The internal steps of the clock-domain crossing (spec 42_cdc_steps.md R250 to R265). Each has
an enabling condition and an effect; a step that is not enabled is not taken. -/

namespace Sys2Proof.Machine

/-- `W_PUB f` is enabled (R251). -/
def Fifo.wPubEnabled (f : Fifo) : Bool := f.wpub != f.lim

/-- `W_PUB f` (R251). -/
def Fifo.wPub (f : Fifo) : Fifo := { f with wpub := ptrSucc f.aw f.wpub }

/-- `R_PUB f` is enabled (R252). -/
def Fifo.rPubEnabled (f : Fifo) : Bool := f.rpub != f.rhead

/-- `R_PUB f` (R252). -/
def Fifo.rPub (f : Fifo) : Fifo := { f with rpub := ptrSucc f.aw f.rpub }

/-- `SYNC_R2W f v` is enabled and admits the draw `v` (R253). -/
def Fifo.syncR2WEnabled (f : Fifo) (v : Nat) : Bool :=
  f.rqb != f.rpub && drawAdmitted f.aw v f.rqb f.rpub

/-- `SYNC_R2W f v` (R253). -/
def Fifo.syncR2W (f : Fifo) (v : Nat) : Fifo := { f with rq := gray (BitVec.ofNat 16 v) }

/-- `SYNC_W2R f v` is enabled and admits the draw `v` (R254). -/
def Fifo.syncW2REnabled (f : Fifo) (v : Nat) : Bool :=
  f.wqb != f.wpub && drawAdmitted f.aw v f.wqb f.wpub

/-- `SYNC_W2R f v` on the FIFO's own registers (R254). -/
def Fifo.syncW2R (f : Fifo) (v : Nat) : Fifo :=
  let g := { f with wq := gray (BitVec.ofNat 16 v) }
  if g.drain then g.advance else g

/-- `CAPTURE f` is enabled (R257). -/
def Fifo.captureEnabled (f : Fifo) : Bool := f.fr != f.flReq

/-- `CAPTURE f` on the FIFO's own registers (R257). -/
def Fifo.capture (f : Fifo) : Fifo :=
  let g := { f with fr := f.flReq, target := f.flMark, flAck := f.flReq, drain := f.flMark != f.rhead }
  if g.drain then g.advance else g

/-- `ACK_SYNC f` is enabled (R258). -/
def Fifo.ackSyncEnabled (f : Fifo) : Bool := f.fa != f.flAck

/-- `ACK_SYNC f` (R258). -/
def Fifo.ackSync (f : Fifo) : Fifo :=
  let g := { f with fa := f.flAck }
  if g.fa == g.flReq && g.flPend then { g with flMark := g.flNext, flReq := !g.flReq, flPend := false } else g

/-- Observing an enqueue of TXF arms; RXF arms nothing (R254, R257, R305). -/
def State.armIfTx (s : State) : FifoId → State
  | .tx => { s with armed := true }
  | .rx => s

/-- `ERR_RX_SYNC` (R259). -/
def State.errRxSync (s : State) : State := { s with errRxQ := s.errRx }

/-- `EC_REQ_SYNC` (R260). -/
def State.ecReqSync (s : State) : State := { s with ecReqQ := s.ecReq, errRx := false, ecAck := s.ecReq }

/-- `EC_ACK_SYNC` (R261). -/
def State.ecAckSync (s : State) : State :=
  let t := { s with ecAckQ := s.ecAck }
  if t.ecAckQ == t.ecReq && t.ecPend then { t with ecReq := !t.ecReq, ecPend := false } else t

/-- The enabling condition of an internal step (R263, R265). -/
def State.internalEnabled (s : State) : InternalStep → Bool
  | .wPub f => (s.fifo f).wPubEnabled
  | .rPub f => (s.fifo f).rPubEnabled
  | .syncR2W f v => (s.fifo f).syncR2WEnabled v
  | .syncW2R f v => (s.fifo f).syncW2REnabled v
  | .capture f => (s.fifo f).captureEnabled
  | .ackSync f => (s.fifo f).ackSyncEnabled
  | .errRxSync => s.errRxQ != s.errRx
  | .ecReqSync => s.ecReqQ != s.ecReq
  | .ecAckSync => s.ecAckQ != s.ecAck

/-- The effect of an internal step where it is enabled (R251 to R261). -/
def State.internalEffect (s : State) : InternalStep → State
  | .wPub f => s.setFifo f (s.fifo f).wPub
  | .rPub f => s.setFifo f (s.fifo f).rPub
  | .syncR2W f v => s.setFifo f ((s.fifo f).syncR2W v)
  | .syncW2R f v => (s.setFifo f ((s.fifo f).syncW2R v)).armIfTx f
  | .capture f => (s.setFifo f (s.fifo f).capture).armIfTx f
  | .ackSync f => s.setFifo f (s.fifo f).ackSync
  | .errRxSync => s.errRxSync
  | .ecReqSync => s.ecReqSync
  | .ecAckSync => s.ecAckSync

/-- An internal step: its effect where it is enabled, nothing elsewhere (R263; notes/assumptions/2.md). -/
def State.internalStep (s : State) (k : InternalStep) : State :=
  if s.internalEnabled k then s.internalEffect k else s

end Sys2Proof.Machine
end

