-- ==== Sys2Proof/Machine/AppPort.lean ====
section
/-! DEFINITION. The commands of the application port (spec 40_app_port.md R150 to R159). Each is the effect of an
accepted command, one APP step; it always completes, since no command raises an exception (R150, R300). -/

namespace Sys2Proof.Machine

/-- `A_NOP` (R151). -/
def execANop (_d8 : Byte) (s : State) : Host.Outcome State Fault Refusal :=
  .next (s.rspA 0 false false false)

/-- `A_TX_ENQ b` (R152). -/
def execATxEnq (b : Byte) (s : State) : Host.Outcome State Fault Refusal :=
  let (ok, t) := s.txEnq b
  .next (t.rspA 0 ok false false)

/-- `A_TX_COUNT` (R153). -/
def execATxCount (_d8 : Byte) (s : State) : Host.Outcome State Fault Refusal :=
  .next (s.rspA (countField s.txf.wcount) false false false)

/-- `A_TX_FULL` (R154). -/
def execATxFull (_d8 : Byte) (s : State) : Host.Outcome State Fault Refusal :=
  .next (s.rspA 0 s.txf.wfull false false)

/-- `A_RX_DEQ` (R155, R117). -/
def execARxDeq (_d8 : Byte) (s : State) : Host.Outcome State Fault Refusal :=
  let (o, t) := s.rxDeq
  .next (t.rspA (zextByte (byteOrZero o)) o.isSome false false)

/-- `A_RX_COUNT` (R156). -/
def execARxCount (_d8 : Byte) (s : State) : Host.Outcome State Fault Refusal :=
  .next (s.rspA (countField s.rxf.rcount) false false false)

/-- The cause bits that `A_ERR_READ` returns: `{14'b0, err_rx_q, err_tx}` (R157). -/
def State.errCause (s : State) : Count :=
  (0#14 ++ BitVec.ofBool s.errRxQ ++ BitVec.ofBool s.errTx : BitVec (14 + 1 + 1))

/-- `A_ERR_READ` (R157). -/
def execAErrRead (_d8 : Byte) (s : State) : Host.Outcome State Fault Refusal :=
  .next (s.rspA s.errCause s.err false false)

/-- The request half of the error clear: a new request, or a remembered one where one is outstanding (R158). -/
def State.requestErrClear (s : State) : State :=
  if s.ecReq == s.ecAckQ then { s with ecReq := !s.ecReq } else { s with ecPend := true }

/-- `A_ERR_CLR` (R158). -/
def execAErrClr (_d8 : Byte) (s : State) : Host.Outcome State Fault Refusal :=
  .next ((State.requestErrClear { s with errTx := false }).rspA 0 false false false)

/-- What every reserved format A code does: `ill = 1` and nothing else (R115, R159). -/
def State.reservedA (s : State) : State := s.rspA 0 false false true

/-- `A_RESERVED_8` (R159). -/
def execAReserved8 (_d8 : Byte) (s : State) : Host.Outcome State Fault Refusal := .next s.reservedA

/-- `A_RESERVED_9` (R159). -/
def execAReserved9 (_d8 : Byte) (s : State) : Host.Outcome State Fault Refusal := .next s.reservedA

/-- `A_RESERVED_A` (R159). -/
def execAReservedA (_d8 : Byte) (s : State) : Host.Outcome State Fault Refusal := .next s.reservedA

/-- `A_RESERVED_B` (R159). -/
def execAReservedB (_d8 : Byte) (s : State) : Host.Outcome State Fault Refusal := .next s.reservedA

/-- `A_RESERVED_C` (R159). -/
def execAReservedC (_d8 : Byte) (s : State) : Host.Outcome State Fault Refusal := .next s.reservedA

/-- `A_RESERVED_D` (R159). -/
def execAReservedD (_d8 : Byte) (s : State) : Host.Outcome State Fault Refusal := .next s.reservedA

/-- `A_RESERVED_E` (R159). -/
def execAReservedE (_d8 : Byte) (s : State) : Host.Outcome State Fault Refusal := .next s.reservedA

/-- `A_RESERVED_F` (R159). -/
def execAReservedF (_d8 : Byte) (s : State) : Host.Outcome State Fault Refusal := .next s.reservedA

end Sys2Proof.Machine
end

