-- ==== Sys2Proof/Machine/SerialPort.lean ====
section
/-! DEFINITION. The commands of the serial port (spec 41_serial_port.md R200 to R210). Each is the effect of an
accepted command, one SER step; it always completes (R200). Whether a presented word is accepted is the port's
matter (`acceptSer`), and so is the dispatcher's `S_ISR` (`dispatcherTurn`). -/

namespace Sys2Proof.Machine

/-- `S_NOP` (R205). -/
def execSNop (_d8 : Byte) (s : State) : Host.Outcome State Fault Refusal :=
  .next (s.rspS 0 false false false)

/-- `S_ISR`, `on_interrupt()` (R204): both pending conditions are sampled at the start, the transmit check
runs first, and both run where both are pending (R307). -/
def execSIsr (_d8 : Byte) (s : State) : Host.Outcome State Fault Refusal :=
  let (sent, t) := if s.txp then s.serveTx else (none, s)
  let (got, u) := if s.rxp then t.serveRx else (none, t)
  .next (u.rspS (byteOrZero got ++ byteOrZero sent) sent.isSome got.isSome false)

/-- `S_TX_DEQ` (R206, R117). -/
def execSTxDeq (_d8 : Byte) (s : State) : Host.Outcome State Fault Refusal :=
  let (o, t) := s.txDeq
  .next (t.rspS (zextByte (byteOrZero o)) o.isSome false false)

/-- `S_RX_ENQ b` (R207). -/
def execSRxEnq (b : Byte) (s : State) : Host.Outcome State Fault Refusal :=
  let (ok, t) := s.rxEnq b
  .next (t.rspS 0 ok false false)

/-- `S_TX_COUNT` (R208). -/
def execSTxCount (_d8 : Byte) (s : State) : Host.Outcome State Fault Refusal :=
  .next (s.rspS (countField s.txf.rcount) false false false)

/-- `S_TX_FULL` (R209). -/
def execSTxFull (_d8 : Byte) (s : State) : Host.Outcome State Fault Refusal :=
  .next (s.rspS 0 s.txf.rfull false false)

/-- What every reserved format S code does: `ill = 1` and nothing else (R115, R210). -/
def State.reservedS (s : State) : State := s.rspS 0 false false true

/-- `S_RESERVED_6` (R210). -/
def execSReserved6 (_d8 : Byte) (s : State) : Host.Outcome State Fault Refusal := .next s.reservedS

/-- `S_RESERVED_7` (R210). -/
def execSReserved7 (_d8 : Byte) (s : State) : Host.Outcome State Fault Refusal := .next s.reservedS

/-- `S_RESERVED_8` (R210). -/
def execSReserved8 (_d8 : Byte) (s : State) : Host.Outcome State Fault Refusal := .next s.reservedS

/-- `S_RESERVED_9` (R210). -/
def execSReserved9 (_d8 : Byte) (s : State) : Host.Outcome State Fault Refusal := .next s.reservedS

/-- `S_RESERVED_A` (R210). -/
def execSReservedA (_d8 : Byte) (s : State) : Host.Outcome State Fault Refusal := .next s.reservedS

/-- `S_RESERVED_B` (R210). -/
def execSReservedB (_d8 : Byte) (s : State) : Host.Outcome State Fault Refusal := .next s.reservedS

/-- `S_RESERVED_C` (R210). -/
def execSReservedC (_d8 : Byte) (s : State) : Host.Outcome State Fault Refusal := .next s.reservedS

/-- `S_RESERVED_D` (R210). -/
def execSReservedD (_d8 : Byte) (s : State) : Host.Outcome State Fault Refusal := .next s.reservedS

/-- `S_RESERVED_E` (R210). -/
def execSReservedE (_d8 : Byte) (s : State) : Host.Outcome State Fault Refusal := .next s.reservedS

/-- `S_RESERVED_F` (R210). -/
def execSReservedF (_d8 : Byte) (s : State) : Host.Outcome State Fault Refusal := .next s.reservedS

end Sys2Proof.Machine
end

