-- ==== Sys2Proof/Machine/Dispatch.lean ====
section
/-! DEFINITION. The dispatch: one arm per row of spec/opcode_table.json. -/

namespace Sys2Proof.Machine

def exec (i : Instr) (s : State) : Host.Outcome State Fault Refusal :=
  match i with
  | .aNop d8 => Sys2Proof.Machine.execANop d8 s
  | .aTxEnq d8 => Sys2Proof.Machine.execATxEnq d8 s
  | .aTxCount d8 => Sys2Proof.Machine.execATxCount d8 s
  | .aTxFull d8 => Sys2Proof.Machine.execATxFull d8 s
  | .aRxDeq d8 => Sys2Proof.Machine.execARxDeq d8 s
  | .aRxCount d8 => Sys2Proof.Machine.execARxCount d8 s
  | .aErrRead d8 => Sys2Proof.Machine.execAErrRead d8 s
  | .aErrClr d8 => Sys2Proof.Machine.execAErrClr d8 s
  | .aReserved8 d8 => Sys2Proof.Machine.execAReserved8 d8 s
  | .aReserved9 d8 => Sys2Proof.Machine.execAReserved9 d8 s
  | .aReservedA d8 => Sys2Proof.Machine.execAReservedA d8 s
  | .aReservedB d8 => Sys2Proof.Machine.execAReservedB d8 s
  | .aReservedC d8 => Sys2Proof.Machine.execAReservedC d8 s
  | .aReservedD d8 => Sys2Proof.Machine.execAReservedD d8 s
  | .aReservedE d8 => Sys2Proof.Machine.execAReservedE d8 s
  | .aReservedF d8 => Sys2Proof.Machine.execAReservedF d8 s
  | .sNop d8 => Sys2Proof.Machine.execSNop d8 s
  | .sIsr d8 => Sys2Proof.Machine.execSIsr d8 s
  | .sTxDeq d8 => Sys2Proof.Machine.execSTxDeq d8 s
  | .sRxEnq d8 => Sys2Proof.Machine.execSRxEnq d8 s
  | .sTxCount d8 => Sys2Proof.Machine.execSTxCount d8 s
  | .sTxFull d8 => Sys2Proof.Machine.execSTxFull d8 s
  | .sReserved6 d8 => Sys2Proof.Machine.execSReserved6 d8 s
  | .sReserved7 d8 => Sys2Proof.Machine.execSReserved7 d8 s
  | .sReserved8 d8 => Sys2Proof.Machine.execSReserved8 d8 s
  | .sReserved9 d8 => Sys2Proof.Machine.execSReserved9 d8 s
  | .sReservedA d8 => Sys2Proof.Machine.execSReservedA d8 s
  | .sReservedB d8 => Sys2Proof.Machine.execSReservedB d8 s
  | .sReservedC d8 => Sys2Proof.Machine.execSReservedC d8 s
  | .sReservedD d8 => Sys2Proof.Machine.execSReservedD d8 s
  | .sReservedE d8 => Sys2Proof.Machine.execSReservedE d8 s
  | .sReservedF d8 => Sys2Proof.Machine.execSReservedF d8 s

end Sys2Proof.Machine
end

