-- ==== Sys2Proof/Machine/Peripheral.lean ====
section
/-! DEFINITION. The steps of the reference peripheral (spec 60_exceptions.md R312 to R314). -/

namespace Sys2Proof.Machine

/-- `P_TXC` on the peripheral (R313). -/
def Periph.txc (p : Periph) : Periph :=
  if p.txe then p else { p with lineOut := p.lineOut ++ [p.tdr], txe := true }

/-- `P_RXA b` on the peripheral (R314). -/
def Periph.rxa (p : Periph) (policy : RxOvrPolicy) (b : Byte) : Periph :=
  let q := { p with lineIn := p.lineIn ++ [b] }
  if q.rxne then
    match policy with
    | .keepOld => { q with ore := true }
    | .takeNew => { q with ore := true, rdr := b }
  else { q with rdr := b, rxne := true }

/-- `P_TXC`, enabled while the data register is taken (R313). -/
def State.periphTxc (s : State) : State := { s with periph := s.periph.txc }

/-- `P_RXA b`, always enabled (R314). -/
def State.periphRxa (s : State) (b : Byte) : State := { s with periph := s.periph.rxa s.ovrPolicy b }

end Sys2Proof.Machine
end

