-- ==== Sys2Proof/Machine/Reset.lean ====
section
/-! DEFINITION. Configuration and reset (spec 00_scope.md R8; 70_reset_and_hazards.md R350 to R353). -/

namespace Sys2Proof.Machine

/-- Why no machine is built for a configuration: a "configuration-time contract violation" (R8, R303; U2). -/
inductive ConfigError where
  /-- `C_TX` is not `2^AW` with `AW` in 0..15. -/
  | txCapacity
  /-- `C_RX` is not `2^AW` with `AW` in 0..15. -/
  | rxCapacity
  /-- Fewer than two synchroniser stages (R11). -/
  | syncStages
  deriving DecidableEq, Repr

/-- The address width of a capacity: `AW` with `2^AW = c`, where there is one in 0..15 (R8). -/
def widthOfCapacity (c : Nat) : Option (Fin 16) :=
  (List.finRange 16).find? fun aw => slotCount aw == c

/-- Fixing the configuration: the first boot requirement (R8, R11, R353). -/
def buildConfig (cTx cRx : Nat) (mode : SerCmdMode) (policy : RxOvrPolicy) (stages : Nat) :
    Except ConfigError Config :=
  match widthOfCapacity cTx, widthOfCapacity cRx with
  | none, _ => .error .txCapacity
  | some _, none => .error .rxCapacity
  | some awTx, some awRx =>
    if stages < 2 then .error .syncStages
    else .ok { awTx := awTx, awRx := awRx, serCmdMode := mode, rxOvrPolicy := policy, syncStages := stages }

/-- The machine of a configuration after reset, where the configuration is accepted (R8, R353). -/
def boot (cTx cRx : Nat) (mode : SerCmdMode) (policy : RxOvrPolicy) (stages : Nat) : Except ConfigError State :=
  match buildConfig cTx cRx mode policy stages with
  | .ok c => .ok (State.ofConfig c)
  | .error e => .error e

/-- Every register at its reset value, under the reset inputs `a`, `b` (R48, R350). The parameters and the
schedule of what the environment does next are no registers and stay (notes/assumptions/8.md). -/
def State.resetTo (s : State) (a b : Bool) : State :=
  { State.ofConfig s.config with rstAN := a, rstSN := b, pending := s.pending, drawn := s.drawn }

/-- The reset inputs take the levels `a`, `b` (R350). Asserting one alone while the block runs has no
transition (R351); levels that stay high change nothing; every other change leaves the block at its reset
values, held there until both levels are high. -/
def State.setResetPins (s : State) (a b : Bool) : Host.Outcome State Fault Refusal :=
  if s.inReset then .next (s.resetTo a b)
  else if a && b then .next s
  else if a || b then .refused .partialReset
  else .next (s.resetTo a b)

end Sys2Proof.Machine
end

