-- ==== Sys2Proof/Machine/Events.lean ====
section
/-! DEFINITION. The events: what a port accepts, the AUTO dispatcher, and one transition of one agent (spec
00_scope.md R17; 10_state.md R33, R34; 41_serial_port.md R200, R211; 70_reset_and_hazards.md R350). -/

namespace Sys2Proof.Machine

/-- A word presented on the APP port is always accepted (R33, R118, R150). -/
def acceptApp (w : Cmd) (s : State) : Host.Outcome State Fault Refusal := exec (decode .app w) s

/-- A word presented on the SER port is accepted in EXTERNAL mode and ignored in AUTO mode (R34, R200;
notes/assumptions/11.md). -/
def acceptSer (w : Cmd) (s : State) : Host.Outcome State Fault Refusal :=
  match s.serMode with
  | .external => exec (decode .ser w) s
  | .auto => .next s

/-- The dispatcher's `S_ISR` is enabled in AUTO mode exactly when `irq = 1` (R211, R306). -/
def State.dispatchEnabled (s : State) : Bool := s.serMode == .auto && s.irq

/-- A turn of the dispatcher: an `S_ISR` where it is enabled (R211; `d8` is ignored, R114). -/
def dispatcherTurn (s : State) : Host.Outcome State Fault Refusal :=
  if s.dispatchEnabled then exec (.sIsr 0) s else .next s

/-- A transition of a block whose resets are both released. -/
def runEvent (e : Event) (s : State) : Host.Outcome State Fault Refusal :=
  match e with
  | .appCmd w => acceptApp w s
  | .appIdle => .next { s with aRspValid := false }
  | .serCmd w => acceptSer w s
  | .serIdle => .next { s with sRspValid := false }
  | .dispatch => dispatcherTurn s
  | .internal k => .next (s.internalStep k)
  | .periphTxc => .next s.periphTxc
  | .periphRxa b => .next (s.periphRxa b)
  | .resetPins a b => s.setResetPins a b

/-- A transition: while a reset input is low, every event but a change of the reset inputs is ignored (R350). -/
def stepEvent (e : Event) (s : State) : Host.Outcome State Fault Refusal :=
  match e with
  | .resetPins a b => s.setResetPins a b
  | e => if s.inReset then .next s else runEvent e s

/-- The next event: the oldest scheduled one, or the environment's free choice where none is scheduled
(notes/assumptions/2.md, 3.md). -/
def State.nextEvent (s : State) : Event :=
  match s.pending with
  | e :: _ => e
  | [] => Config.freeEvent s.drawn

/-- The state once the next event has been drawn. -/
def State.drawEvent (s : State) : State :=
  match s.pending with
  | _ :: es => { s with pending := es }
  | [] => { s with drawn := s.drawn + 1 }

/-- One transition of the machine: draw the next event, let the strobes of the last step fall, and take it. -/
def stepNext (s : State) : Host.Outcome State Fault Refusal :=
  stepEvent s.nextEvent s.drawEvent.strobesDown

/-- The command word of a number of the opcode table, presented on its port (notes/assumptions/5.md). -/
def presentTableWord (w : Nat) : Event :=
  match tableWordPort w with
  | .app => .appCmd (BitVec.ofNat 12 (tableWordCmd w))
  | .ser => .serCmd (BitVec.ofNat 12 (tableWordCmd w))

/-- The mode in which the port of a number of the opcode table accepts a word: the SER port accepts words in
EXTERNAL mode only (R200). -/
def modeForTableWord (w : Nat) (m : SerCmdMode) : SerCmdMode :=
  match tableWordPort w with
  | .app => m
  | .ser => .external

end Sys2Proof.Machine
end

