-- ==== Sys2Proof/Machine/Step.lean ====
section
/-! DEFINITION. One step of the machine, and the presentation of one command as its very next event. -/

namespace Sys2Proof.Machine

/-- One atomic transition (spec 00_scope.md R17). -/
def step (s : State) : Host.Outcome State Fault Refusal := stepNext s

/-- `s` with the command of the table number `w` presented as the very next event, on a block that is out of
reset and in the mode in which that port accepts commands (notes/assumptions/4.md, 5.md). -/
def State.withFetchWord (s : State) (nbits w : Nat) : State :=
  { s with pending := presentTableWord (w % 2 ^ nbits) :: s.pending,
           serMode := modeForTableWord (w % 2 ^ nbits) s.serMode,
           rstAN := true, rstSN := true }

end Sys2Proof.Machine
end

