-- ==== Sys2Proof/Machine/Abs.lean ====
section
/-! DEFINITION. The abstract channel model ABS, the source's own semantics (spec 20_memory.md R95, R96), with
the peripheral that its interrupt entry calls, and the abstraction of a settled state (R98). -/

namespace Sys2Proof.Machine

/-- The state of ABS, with the two capacities it is built with (R95). -/
structure Abs where
  cTx : Nat
  cRx : Nat
  txq : List Byte
  rxq : List Byte
  txie : Bool
  err : Bool
  deriving DecidableEq, Repr

/-- `tx_enqueue(b)` (R96): every attempt re-arms. -/
def Abs.txEnqueue (a : Abs) (b : Byte) : Bool × Abs :=
  if a.txq.length = a.cTx then (false, { a with txq := [], err := true, txie := true })
  else (true, { a with txq := a.txq ++ [b], txie := true })

/-- `tx_dequeue()` (R96). -/
def Abs.txDequeue (a : Abs) : Option Byte × Abs :=
  match a.txq with
  | [] => (none, { a with txie := false })
  | b :: q => (some b, { a with txq := q })

/-- `rx_enqueue(b)` (R96). -/
def Abs.rxEnqueue (a : Abs) (b : Byte) : Bool × Abs :=
  if a.rxq.length = a.cRx then (false, { a with rxq := [], err := true })
  else (true, { a with rxq := a.rxq ++ [b] })

/-- `rx_dequeue()` (R96). -/
def Abs.rxDequeue (a : Abs) : Option Byte × Abs :=
  match a.rxq with
  | [] => (none, a)
  | b :: q => (some b, { a with rxq := q })

/-- `err_clear()` (R96). -/
def Abs.errClear (a : Abs) : Abs := { a with err := false }

/-- `read_pending(transmit-empty)` in ABS, as R201 takes it: the flag and the enable (notes/assumptions/22.md). -/
def Abs.txPending (a : Abs) (p : Periph) : Bool := p.txe && a.txie

/-- First check of `on_interrupt()` (R96): dequeue, and `write_data` where a byte was there. -/
def Abs.serveTx (a : Abs) (p : Periph) : Option Byte × Abs × Periph :=
  if a.txPending p then
    match a.txDequeue with
    | (none, c) => (none, c, p)
    | (some b, c) => (some b, c, p.writeData b)
  else (none, a, p)

/-- Second check of `on_interrupt()` (R96): `read_data`, enqueue, and `clear_pending(receive-not-empty)`. -/
def Abs.serveRx (a : Abs) (p : Periph) : Option Byte × Abs × Periph :=
  if p.rxne then (some p.readData, (a.rxEnqueue p.readData).2, p.clearRxne) else (none, a, p)

/-- `on_interrupt()` (R96), both checks, on ABS and on the peripheral it calls. The results are the byte written
to the peripheral and the byte read from it. -/
def Abs.onInterrupt (a : Abs) (p : Periph) : (Option Byte × Option Byte) × Abs × Periph :=
  let (sent, c, q) := a.serveTx p
  let (got, d, r) := c.serveRx q
  ((sent, got), d, r)

/-- What an ABS operation returns. -/
inductive AbsResult where
  | done
  | ok (b : Bool)
  | count (n : Nat)
  | errorFlag (b : Bool)
  | item (o : Option Byte)
  | served (sent got : Option Byte)
  | noCommand
  deriving DecidableEq, Repr

/-- The ABS operation of a command, on ABS and on the peripheral, which only `on_interrupt()` calls (R96, R98;
30_encoding.md R111, R112). -/
def Abs.command (i : Instr) (a : Abs) (p : Periph) : AbsResult × Abs × Periph :=
  match i with
  | .aNop _ | .sNop _ => (.done, a, p)
  | .aTxEnq b => let (ok, c) := a.txEnqueue b; (.ok ok, c, p)
  | .aTxCount _ | .sTxCount _ => (.count a.txq.length, a, p)
  | .aTxFull _ | .sTxFull _ => (.ok (a.txq.length == a.cTx), a, p)
  | .aRxDeq _ => let (o, c) := a.rxDequeue; (.item o, c, p)
  | .aRxCount _ => (.count a.rxq.length, a, p)
  | .aErrRead _ => (.errorFlag a.err, a, p)
  | .aErrClr _ => (.done, a.errClear, p)
  | .sIsr _ => let (r, c) := a.onInterrupt p; (.served r.1 r.2, c)
  | .sTxDeq _ => let (o, c) := a.txDequeue; (.item o, c, p)
  | .sRxEnq b => let (ok, c) := a.rxEnqueue b; (.ok ok, c, p)
  | .aReserved8 _ | .aReserved9 _ | .aReservedA _ | .aReservedB _ | .aReservedC _ | .aReservedD _
  | .aReservedE _ | .aReservedF _ | .sReserved6 _ | .sReserved7 _ | .sReserved8 _ | .sReserved9 _
  | .sReservedA _ | .sReservedB _ | .sReservedC _ | .sReservedD _ | .sReservedE _ | .sReservedF _ =>
    (.noCommand, a, p)

/-- A response word returns an ABS result (30_encoding.md R116). The cause bits of `A_ERR_READ` are the spec's
addition and are no result of ABS (R157), so there only `f0` counts (notes/assumptions/25.md). -/
def AbsResult.returnedBy (r : AbsResult) (w : Response) : Bool :=
  match r with
  | .done => w == { val := 0, f0 := false, f1 := false, ill := false }
  | .ok b => w == { val := 0, f0 := b, f1 := false, ill := false }
  | .count n => w == { val := countField n, f0 := false, f1 := false, ill := false }
  | .errorFlag b => w.f0 == b && !w.f1 && !w.ill
  | .item o => w == { val := zextByte (byteOrZero o), f0 := o.isSome, f1 := false, ill := false }
  | .served sent got =>
    w == { val := byteOrZero got ++ byteOrZero sent, f0 := sent.isSome, f1 := got.isSome, ill := false }
  | .noCommand => w == { val := 0, f0 := false, f1 := false, ill := true }

/-- The abstraction of a state, meant at settled states (R98). -/
def State.abs (s : State) : Abs :=
  { cTx := s.txf.capacity, cRx := s.rxf.capacity, txq := s.txf.contents, rxq := s.rxf.contents,
    txie := s.armed, err := s.errTx || s.errRxQ }

/-- The response registers of a port. -/
def State.rspOf (s : State) : Port → Response
  | .app => s.aRsp
  | .ser => s.sRsp

end Sys2Proof.Machine
end

