-- ==== Sys2Proof/Machine/Pseudo.lean ====
section
/-! DEFINITION. The pseudo-instructions: sequences of `A_TX_ENQ` (spec 30_encoding.md R125). They are no
commands of the block. -/

namespace Sys2Proof.Machine

/-- One `A_TX_ENQ` for each byte, in order (R125). -/
def sendBytes (bs : List Byte) : List Instr := bs.map fun b => .aTxEnq b

/-- `SEND_STR`: the bytes before the first NUL; the NUL is not sent (R125; notes/assumptions/28.md). -/
def sendStr (bs : List Byte) : List Instr := sendBytes (bs.takeWhile fun b => b != 0)

/-- `SEND_EOL`: the bytes of `EOL_SEQ`, which is OPEN (R125; notes/assumptions/16.md). -/
def sendEol : List Instr := sendBytes Config.eolSeq

/-- `SEND_DEC n`: the bytes of `DEC_FORMAT(n)`, which is OPEN (R125; notes/assumptions/16.md). -/
def sendDec (n : Int) : List Instr := sendBytes (Config.decFormat n)

/-- Commands presented on a port, one event each, in order (R118). -/
def present (is : List Instr) : List Event :=
  is.map fun i =>
    match i.port with
    | .app => .appCmd (encode i)
    | .ser => .serCmd (encode i)

end Sys2Proof.Machine
end

