-- ==== Sys2Proof/Machine/Settle.lean ====
section
/-! DEFINITION. Settling: internal steps with catch-up draws until none changes the state (spec 20_memory.md
R97). The order is fixed here; R97 says the end state does not depend on it (notes/assumptions/24.md). -/

namespace Sys2Proof.Machine

/-- The internal steps, each synchroniser step with the catch-up draw: the published pointer it views (R97). -/
def State.catchUpSteps (s : State) : List InternalStep :=
  [.wPub .tx, .wPub .rx, .rPub .tx, .rPub .rx,
   .syncR2W .tx s.txf.rpub.toNat, .syncR2W .rx s.rxf.rpub.toNat,
   .syncW2R .tx s.txf.wpub.toNat, .syncW2R .rx s.rxf.wpub.toNat,
   .capture .tx, .capture .rx, .ackSync .tx, .ackSync .rx, .errRxSync, .ecReqSync, .ecAckSync]

/-- No catch-up step is enabled (R97). -/
def State.settled (s : State) : Bool := s.catchUpSteps.all fun k => !s.internalEnabled k

/-- Take the first enabled catch-up step, where there is one. -/
def State.settleOnce (s : State) : Option State :=
  match s.catchUpSteps.find? fun k => s.internalEnabled k with
  | some k => some (s.internalEffect k)
  | none => none

/-- At most `n` catch-up steps. -/
def settleFor : Nat → State → State
  | 0, s => s
  | n + 1, s =>
    match s.settleOnce with
    | some t => settleFor n t
    | none => s

/-- Enough steps for both FIFOs to publish, be seen, flush and acknowledge, and for the error handshake. -/
def State.settleBound (s : State) : Nat := 4 * (s.txf.capacity + s.rxf.capacity) + 32

/-- The settle of R97. -/
def State.settle (s : State) : State := settleFor s.settleBound s

end Sys2Proof.Machine
end

