-- ==== Sys2Proof/Safety.lean ====
section
/-! DEFINITION. What counts as a safe state and a fair run: the invariant of the chain and the handshakes (spec
10_state.md R49), which agent owns which register (R48), runs, and weak fairness (42_cdc_steps.md R263). -/

namespace Sys2Proof.Machine

/-! ### The invariant (R49) -/

/-- The distance of a position from the producer's view, the order in which R49 compares positions. -/
def Fifo.pos (f : Fifo) (p : Ptr) : Nat := dist f.aw p f.rqb

/-- Every pointer register holds a value of `PW_f` bits (R9, R19), and storage holds the slots of the FIFO
only, in canonical form (R39). -/
abbrev Fifo.InRange (f : Fifo) : Prop :=
  (inRange f.aw f.wptr ∧ inRange f.aw f.wpub ∧ inRange f.aw f.rq ∧ inRange f.aw f.flMark ∧
    inRange f.aw f.flNext ∧ inRange f.aw f.rhead ∧ inRange f.aw f.rpub ∧ inRange f.aw f.wq ∧
    inRange f.aw f.target) ∧
  Memory.wf f.mem ∧ ∀ c ∈ f.mem, c.1 < f.capacity

/-- R49 item 1. -/
abbrev Fifo.Chain (f : Fifo) : Prop :=
  f.pos f.rpub ≤ f.pos f.rhead ∧ f.pos f.rhead ≤ f.pos f.wqb ∧ f.pos f.wqb ≤ f.pos f.wpub ∧
    f.pos f.wpub ≤ f.pos f.wptr ∧ f.pos f.wptr ≤ f.capacity

/-- R49 item 2, its clause on `fl_mark` read for an outstanding flush (notes/assumptions/14.md). -/
abbrev Fifo.PublishHold (f : Fifo) : Prop :=
  f.pos f.wpub ≤ f.pos f.lim ∧ (f.flushOutstanding = true → f.pos f.flMark ≤ f.pos f.wptr)

/-- R49 item 3, with the phases of the handshake: the request view equals the acknowledge, and a request is
either not yet captured or not yet acknowledged. -/
abbrev Fifo.FlushPhase (f : Fifo) : Prop :=
  f.fr = f.flAck ∧ (f.flReq = f.flAck ∨ f.fa = f.flAck) ∧
    (f.flPend = true →
      f.flushOutstanding = true ∧ f.pos f.flMark ≤ f.pos f.flNext ∧ f.pos f.flNext ≤ f.pos f.wptr) ∧
    (f.fr = f.flAck → f.flReq ≠ f.flAck → f.pos f.rhead ≤ f.pos f.flMark)

/-- R49 item 4, and that an outstanding mark is no earlier than the target being drained to. -/
abbrev Fifo.DrainOrder (f : Fifo) : Prop :=
  f.drain = true →
    f.rhead = f.wqb ∧ f.pos f.rhead < f.pos f.target ∧ f.pos f.target ≤ f.pos f.wptr ∧
      dist f.aw f.target f.rhead ≤ f.capacity ∧
      (f.flushOutstanding = true → f.pos f.target ≤ f.pos f.flMark)

/-- The invariant of one FIFO (R49). -/
abbrev Fifo.Inv (f : Fifo) : Prop :=
  f.InRange ∧ f.Chain ∧ f.PublishHold ∧ f.FlushPhase ∧ f.DrainOrder

/-- The phases of the error-clear handshake (R45, R260, R261). -/
abbrev State.ErrClearPhase (s : State) : Prop :=
  s.ecReqQ = s.ecAck ∧ (s.ecReq = s.ecAck ∨ s.ecAckQ = s.ecAck) ∧ (s.ecPend = true → s.ecReq ≠ s.ecAckQ)

/-- No lost wake-up: bytes the SER domain can see leave the interrupt armed (R262, R266, R354). -/
abbrev State.ArmedWhenVisible (s : State) : Prop := s.txf.rcount ≠ 0 → s.armed = true

/-- While a reset input is low every register is at its reset value (R350). -/
abbrev State.HeldInReset (s : State) : Prop := s.inReset = true → s = s.resetTo s.rstAN s.rstSN

/-- The invariant of the machine. -/
abbrev State.Inv (s : State) : Prop :=
  s.txf.Inv ∧ s.rxf.Inv ∧ s.ErrClearPhase ∧ s.ArmedWhenVisible ∧ s.HeldInReset

/-! ### Ownership (R37, R38, R48) -/

/-- The write-domain registers of a FIFO (R37) and its storage, which only the write domain writes (R39). -/
structure WriteEnd where
  wptr : Ptr
  wpub : Ptr
  rq : Ptr
  flReq : Bool
  flMark : Ptr
  flPend : Bool
  flNext : Ptr
  fa : Bool
  mem : Memory
  deriving DecidableEq, Repr

/-- The read-domain registers of a FIFO (R38). -/
structure ReadEnd where
  rhead : Ptr
  rpub : Ptr
  wq : Ptr
  fr : Bool
  flAck : Bool
  drain : Bool
  target : Ptr
  deriving DecidableEq, Repr

def Fifo.writeEnd (f : Fifo) : WriteEnd :=
  { wptr := f.wptr, wpub := f.wpub, rq := f.rq, flReq := f.flReq, flMark := f.flMark, flPend := f.flPend,
    flNext := f.flNext, fa := f.fa, mem := f.mem }

def Fifo.readEnd (f : Fifo) : ReadEnd :=
  { rhead := f.rhead, rpub := f.rpub, wq := f.wq, fr := f.fr, flAck := f.flAck, drain := f.drain,
    target := f.target }

/-- What only APP steps write (R48): its registers, TXF's write end and RXF's read end, and its port outputs. -/
structure AppOwned where
  txWrite : WriteEnd
  rxRead : ReadEnd
  errTx : Bool
  errRxQ : Bool
  ecReq : Bool
  ecPend : Bool
  ecAckQ : Bool
  aRsp : Response
  aRspValid : Bool
  deriving DecidableEq, Repr

/-- What only SER steps write (R48): its registers, TXF's read end and RXF's write end, its port outputs and
the peripheral strobes. -/
structure SerOwned where
  txRead : ReadEnd
  rxWrite : WriteEnd
  armed : Bool
  errRx : Bool
  ecReqQ : Bool
  ecAck : Bool
  sRsp : Response
  sRspValid : Bool
  strobes : Strobes
  deriving DecidableEq, Repr

def State.appOwned (s : State) : AppOwned :=
  { txWrite := s.txf.writeEnd, rxRead := s.rxf.readEnd, errTx := s.errTx, errRxQ := s.errRxQ,
    ecReq := s.ecReq, ecPend := s.ecPend, ecAckQ := s.ecAckQ, aRsp := s.aRsp, aRspValid := s.aRspValid }

def State.serOwned (s : State) : SerOwned :=
  { txRead := s.txf.readEnd, rxWrite := s.rxf.writeEnd, armed := s.armed, errRx := s.errRx,
    ecReqQ := s.ecReqQ, ecAck := s.ecAck, sRsp := s.sRsp, sRspValid := s.sRspValid, strobes := s.strobes }

/-- The agents whose steps an event is (R17, R32, R312). -/
inductive Agent where
  | app
  | ser
  | peripheral
  | integrator
  deriving DecidableEq, Repr

/-- The domain that owns an internal step (R265). -/
def ownerOf : InternalStep → Agent
  | .wPub .tx | .syncR2W .tx _ | .ackSync .tx => .app
  | .wPub .rx | .syncR2W .rx _ | .ackSync .rx => .ser
  | .rPub .tx | .syncW2R .tx _ | .capture .tx => .ser
  | .rPub .rx | .syncW2R .rx _ | .capture .rx => .app
  | .errRxSync | .ecAckSync => .app
  | .ecReqSync => .ser

/-- The write domain of a FIFO: APP writes TXF and SER writes RXF (R36). -/
def writeDomain : FifoId → Agent
  | .tx => .app
  | .rx => .ser

/-- The read domain of a FIFO: SER reads TXF and APP reads RXF (R36). -/
def readDomain : FifoId → Agent
  | .tx => .ser
  | .rx => .app

/-- The agent of an event (R17). -/
def agentOf : Event → Agent
  | .appCmd _ | .appIdle => .app
  | .serCmd _ | .serIdle | .dispatch => .ser
  | .internal k => ownerOf k
  | .periphTxc | .periphRxa _ => .peripheral
  | .resetPins _ _ => .integrator

/-! ### Runs -/

/-- A finite run under a schedule of events, stopping where there is no transition (R17). -/
def runEvents : List Event → State → Host.Outcome State Fault Refusal
  | [], s => .next s
  | e :: es, s =>
    match stepEvent e s.strobesDown with
    | .next t => runEvents es t
    | .fault r => .fault r
    | .refused r => .refused r

/-- One step of a prompt schedule: the block is settled before the event (R97). -/
def promptEvent (e : Event) (s : State) : Host.Outcome State Fault Refusal := stepEvent e s.settle.strobesDown

/-! ### The two byte streams (20_memory.md R85) -/

/-- The event is an `S_ISR` that is executed: a command accepted in EXTERNAL mode, or an enabled turn of the
dispatcher (R200, R211). -/
def runsIsr (e : Event) (s : State) : Bool :=
  match e with
  | .serCmd w => s.serMode == .external && (opField w == 1)
  | .dispatch => s.dispatchEnabled
  | _ => false

/-- The byte that the event offers to the write end of `f`, where it offers one (R152, R204, R207). -/
def offeredBy (f : FifoId) (e : Event) (s : State) : Option Byte :=
  if s.inReset then none
  else
    match f, e with
    | .tx, .appCmd w => if opField w == 1 then some (byteField w) else none
    | .rx, .serCmd w =>
      if s.serMode == .external && opField w == 3 then some (byteField w)
      else if runsIsr e s && s.rxp then some s.periph.rdr
      else none
    | .rx, .dispatch => if runsIsr e s && s.rxp then some s.periph.rdr else none
    | _, _ => none

/-- The byte that the event puts into `f`: the one offered, unless the producer's view is full. -/
def acceptedBy (f : FifoId) (e : Event) (s : State) : List Byte :=
  if (s.fifo f).wfull then [] else (offeredBy f e s).toList

/-- The event takes from the read end of `f` (R155, R202, R204, R206). -/
def asksFor (f : FifoId) (e : Event) (s : State) : Bool :=
  !s.inReset &&
    match f, e with
    | .tx, .serCmd w => s.serMode == .external && (opField w == 2 || (opField w == 1 && s.txp))
    | .tx, .dispatch => s.dispatchEnabled && s.txp
    | .rx, .appCmd w => opField w == 4
    | _, _ => false

/-- The byte that the event takes from `f`, where the consumer's view is not empty. -/
def takenBy (f : FifoId) (e : Event) (s : State) : List Byte :=
  if asksFor f e s && !(s.fifo f).rempty then [(s.fifo f).byteAt (s.fifo f).rhead] else []

/-- The bytes that a run puts into `f`, in order. -/
def acceptedIn (f : FifoId) : List Event → State → List Byte
  | [], _ => []
  | e :: es, s =>
    match stepEvent e s.strobesDown with
    | .next t => acceptedBy f e s ++ acceptedIn f es t
    | .fault _ | .refused _ => []

/-- The bytes that a run takes from `f`, in order. -/
def takenIn (f : FifoId) : List Event → State → List Byte
  | [], _ => []
  | e :: es, s =>
    match stepEvent e s.strobesDown with
    | .next t => takenBy f e s ++ takenIn f es t
    | .fault _ | .refused _ => []

/-- The bytes that the read end of `x` skips where its pointer moves to that of `y` (R255: no storage is read). -/
def Fifo.skippedTo (x y : Fifo) : List Byte :=
  (List.range (dist x.aw y.rhead x.rhead)).map fun k => x.byteAt (ptrAdd x.aw x.rhead k)

/-- The bytes that a flush discards from `f` in the event: those skipped by a `CAPTURE`, or by a `SYNC_W2R` while
draining (R254, R255, R257). -/
def discardedBy (f : FifoId) (e : Event) (s : State) : List Byte :=
  match e with
  | .internal (.capture g) =>
    if g == f && !s.inReset && s.internalEnabled (.capture g) then
      (s.fifo f).skippedTo (s.fifo f).capture
    else []
  | .internal (.syncW2R g v) =>
    if g == f && !s.inReset && s.internalEnabled (.syncW2R g v) && (s.fifo f).drain then
      (s.fifo f).skippedTo ((s.fifo f).syncW2R v)
    else []
  | _ => []

/-- How a byte leaves a FIFO (20_memory.md R85). -/
inductive Exit where
  | taken (b : Byte)
  | discarded (b : Byte)
  deriving DecidableEq, Repr

/-- The byte that leaves. -/
def Exit.byte : Exit → Byte
  | .taken b => b
  | .discarded b => b

/-- The byte, where the consumer obtains it. -/
def Exit.obtained : Exit → Option Byte
  | .taken b => some b
  | .discarded _ => none

/-- What leaves `f` in the event, oldest first. -/
def exitsBy (f : FifoId) (e : Event) (s : State) : List Exit :=
  (takenBy f e s).map .taken ++ (discardedBy f e s).map .discarded

/-- What leaves `f` in a run, oldest first. -/
def exitsIn (f : FifoId) : List Event → State → List Exit
  | [], _ => []
  | e :: es, s =>
    match stepEvent e s.strobesDown with
    | .next t => exitsBy f e s ++ exitsIn f es t
    | .fault _ | .refused _ => []

/-- The event is a `CAPTURE` of `f` that is enabled, so taken (R257). -/
def capturesFlush (f : FifoId) (e : Event) (s : State) : Bool :=
  e == .internal (.capture f) && !s.inReset && s.internalEnabled (.capture f)

/-- Some step of the run captures a flush of `f`. -/
def flushesIn (f : FifoId) : List Event → State → Bool
  | [], _ => false
  | e :: es, s =>
    capturesFlush f e s ||
      match stepEvent e s.strobesDown with
      | .next t => flushesIn f es t
      | .fault _ | .refused _ => false

/-- The event changes the reset inputs. -/
def isResetEvent (e : Event) : Bool := agentOf e == .integrator

/-! ### Positions without a modulus (R49)

R49 orders positions that the registers hold modulo `M_f`. A history counts them from reset without a modulus, so that
every item of R49 has one meaning in every state. It is a means of the statements: State does not hold it, and no
step reads it (notes/assumptions/14.md). -/

/-- What has happened to a FIFO since reset: the bytes accepted, oldest first, and the position of each pointer and
mark. `wptr` stands at position `accepted.length`. -/
structure History where
  accepted : List Byte
  wpub : Nat
  rqb : Nat
  rhead : Nat
  rpub : Nat
  wqb : Nat
  mark : Nat
  next : Nat
  target : Nat
  deriving DecidableEq, Repr

/-- Right after reset. -/
def History.empty : History :=
  { accepted := [], wpub := 0, rqb := 0, rhead := 0, rpub := 0, wqb := 0, mark := 0, next := 0, target := 0 }

/-- The pointer value of a position (R9, R15). -/
def pointerAt (aw n : Nat) : Ptr := ptrAdd aw 0 n

/-- The history after a step that takes the FIFO from `x` to `y` and accepts `bs`. A pointer goes on by the increments
between its values (R15). The mark is set where the request toggles, to the remembered position or to that of
`wptr` (R256, R258), the remembered one where `FLUSH_REQ` writes it (R256), and the target at a capture (R257). -/
def History.after (h : History) (x y : Fifo) (bs : List Byte) : History :=
  { accepted := h.accepted ++ bs,
    wpub := h.wpub + dist x.aw y.wpub x.wpub, rqb := h.rqb + dist x.aw y.rqb x.rqb,
    rhead := h.rhead + dist x.aw y.rhead x.rhead, rpub := h.rpub + dist x.aw y.rpub x.rpub,
    wqb := h.wqb + dist x.aw y.wqb x.wqb,
    mark := if y.flReq = x.flReq then h.mark else if x.flPend then h.next else h.accepted.length,
    next := if y.flPend && !(x.flPend && y.flNext == x.flNext) then h.accepted.length else h.next,
    target := if y.fr = x.fr then h.target else h.mark }

/-- Every pointer and mark of the FIFO holds its position modulo `M_f`. -/
abbrev Fifo.PointersAt (f : Fifo) (h : History) : Prop :=
  f.wptr = pointerAt f.aw h.accepted.length ∧ f.wpub = pointerAt f.aw h.wpub ∧ f.rqb = pointerAt f.aw h.rqb ∧
    f.rhead = pointerAt f.aw h.rhead ∧ f.rpub = pointerAt f.aw h.rpub ∧ f.wqb = pointerAt f.aw h.wqb ∧
    f.flMark = pointerAt f.aw h.mark ∧ f.flNext = pointerAt f.aw h.next ∧ f.target = pointerAt f.aw h.target

/-- R49 item 1. -/
abbrev Fifo.ChainAt (f : Fifo) (h : History) : Prop :=
  h.rqb ≤ h.rpub ∧ h.rpub ≤ h.rhead ∧ h.rhead ≤ h.wqb ∧ h.wqb ≤ h.wpub ∧ h.wpub ≤ h.accepted.length ∧
    h.accepted.length ≤ h.rqb + f.capacity

/-- R49 item 2, in every state. -/
abbrev Fifo.PublishHoldAt (f : Fifo) (h : History) : Prop :=
  h.wpub ≤ (if f.flushOutstanding then h.mark else h.accepted.length) ∧ h.mark ≤ h.accepted.length

/-- R49 item 3. -/
abbrev Fifo.FlushAt (f : Fifo) (h : History) : Prop :=
  (f.flPend = true → f.flReq ≠ f.fa ∧ h.mark ≤ h.next ∧ h.next ≤ h.accepted.length) ∧
    (f.fr = f.flAck → f.flReq ≠ f.flAck → h.rhead ≤ h.mark)

/-- R49 item 4. -/
abbrev Fifo.DrainAt (f : Fifo) (h : History) : Prop :=
  f.drain = true →
    h.rhead < h.target ∧ h.rhead = h.wqb ∧ h.target ≤ h.accepted.length ∧ h.target ≤ h.rhead + f.capacity

/-- R49 item 5, for every position that is not consumed, seen by the consumer or not: its slot holds the byte that
the enqueue of that position accepted. -/
abbrev Fifo.DataAt (f : Fifo) (h : History) : Prop :=
  ∀ p, h.rhead ≤ p → p < h.accepted.length → h.accepted[p]? = some (f.mem.read (p % f.capacity))

/-- R49 item 6: where an enqueue is accepted, no position that is not published past has its slot. -/
abbrev Fifo.NoOverwriteAt (f : Fifo) (h : History) : Prop :=
  f.wfull = false → ∀ p, h.rpub ≤ p → p < h.accepted.length → p % f.capacity ≠ slotOf f.aw f.wptr

/-- The six items of R49 in the positions of a history. -/
structure Fifo.Follows (f : Fifo) (h : History) : Prop where
  pointers : f.PointersAt h
  chain : f.ChainAt h
  publishHold : f.PublishHoldAt h
  flush : f.FlushAt h
  drain : f.DrainAt h
  data : f.DataAt h
  noOverwrite : f.NoOverwriteAt h

/-- The clause of R49 item 2 on `fl_mark` in the modular order of R15, without a condition. -/
abbrev Fifo.MarkInOrder (f : Fifo) : Prop := f.pos f.flMark ≤ f.pos f.wptr

/-- An infinite run under a schedule (R17). -/
def IsRun (r : Nat → State) (sched : Nat → Event) : Prop :=
  ∀ n, stepEvent (sched n) (r n).strobesDown = .next (r (n + 1))

/-! ### Weak fairness (R211, R263, R313; D27; notes/assumptions/17.md) -/

/-- What is weakly fair: the internal steps, a synchroniser step under any of its draws, the dispatcher, and
`P_TXC`. Commands, `P_RXA` and the reset inputs are not. -/
inductive FairAction where
  | wPub (f : FifoId)
  | rPub (f : FifoId)
  | syncR2W (f : FifoId)
  | syncW2R (f : FifoId)
  | capture (f : FifoId)
  | ackSync (f : FifoId)
  | errRxSync
  | ecReqSync
  | ecAckSync
  | dispatch
  | periphTxc
  deriving DecidableEq, Repr

/-- The action is enabled in a state (R211, R263, R313). -/
def FairAction.enabled (s : State) : FairAction → Prop
  | .wPub f => s.internalEnabled (.wPub f) = true
  | .rPub f => s.internalEnabled (.rPub f) = true
  | .syncR2W f => ∃ v, s.internalEnabled (.syncR2W f v) = true
  | .syncW2R f => ∃ v, s.internalEnabled (.syncW2R f v) = true
  | .capture f => s.internalEnabled (.capture f) = true
  | .ackSync f => s.internalEnabled (.ackSync f) = true
  | .errRxSync => s.internalEnabled .errRxSync = true
  | .ecReqSync => s.internalEnabled .ecReqSync = true
  | .ecAckSync => s.internalEnabled .ecAckSync = true
  | .dispatch => s.dispatchEnabled = true
  | .periphTxc => s.periph.txe = false

/-- The event takes the action in a state. -/
def FairAction.takenBy (s : State) (e : Event) : FairAction → Prop
  | .wPub f => e = .internal (.wPub f)
  | .rPub f => e = .internal (.rPub f)
  | .syncR2W f => ∃ v, e = .internal (.syncR2W f v) ∧ s.internalEnabled (.syncR2W f v) = true
  | .syncW2R f => ∃ v, e = .internal (.syncW2R f v) ∧ s.internalEnabled (.syncW2R f v) = true
  | .capture f => e = .internal (.capture f)
  | .ackSync f => e = .internal (.ackSync f)
  | .errRxSync => e = .internal .errRxSync
  | .ecReqSync => e = .internal .ecReqSync
  | .ecAckSync => e = .internal .ecAckSync
  | .dispatch => e = .dispatch
  | .periphTxc => e = .periphTxc

/-- An action that stays enabled is eventually taken (R263). -/
def WeaklyFair (r : Nat → State) (sched : Nat → Event) (a : FairAction) : Prop :=
  ∀ n, ∃ m, n ≤ m ∧ (¬ FairAction.enabled (r m) a ∨ FairAction.takenBy (r m) (sched m) a)

end Sys2Proof.Machine
end

