-- ==== Sys2Proof/Certificates/Slice0/Obligations.lean ====
section
/-! DEFINITION. The statements for the provers. Each docstring names the rule it formalises, or says that it is
derived. States range over every configuration and every value of the free choices. -/

section
open Sys2Proof Sys2Proof.Machine

/-! ### Encoding -/

/-- Derived from 30_encoding.md R110, R113, R123: encoding then decoding on its own port gives an instruction back,
and every word of a port decodes to an instruction of that port that encodes to the same word. -/
def Obligations.EncodeDecodeAgree : Prop :=
  (∀ (p : Port) (i : Instr), i.wellFormedOn p = true → decode p (encode i) = i) ∧
  (∀ (p : Port) (w : Cmd), (decode p w).wellFormedOn p = true ∧ encode (decode p w) = w)

/-- R111, R112: the two tables of operation codes. -/
def Obligations.OperationCodeTables : Prop :=
  ∀ d : Byte,
    (decode .app (0x0#4 ++ d) = .aNop d ∧ decode .app (0x1#4 ++ d) = .aTxEnq d ∧
      decode .app (0x2#4 ++ d) = .aTxCount d ∧ decode .app (0x3#4 ++ d) = .aTxFull d ∧
      decode .app (0x4#4 ++ d) = .aRxDeq d ∧ decode .app (0x5#4 ++ d) = .aRxCount d ∧
      decode .app (0x6#4 ++ d) = .aErrRead d ∧ decode .app (0x7#4 ++ d) = .aErrClr d ∧
      decode .app (0x8#4 ++ d) = .aReserved8 d ∧ decode .app (0x9#4 ++ d) = .aReserved9 d ∧
      decode .app (0xA#4 ++ d) = .aReservedA d ∧ decode .app (0xB#4 ++ d) = .aReservedB d ∧
      decode .app (0xC#4 ++ d) = .aReservedC d ∧ decode .app (0xD#4 ++ d) = .aReservedD d ∧
      decode .app (0xE#4 ++ d) = .aReservedE d ∧ decode .app (0xF#4 ++ d) = .aReservedF d) ∧
    (decode .ser (0x0#4 ++ d) = .sNop d ∧ decode .ser (0x1#4 ++ d) = .sIsr d ∧
      decode .ser (0x2#4 ++ d) = .sTxDeq d ∧ decode .ser (0x3#4 ++ d) = .sRxEnq d ∧
      decode .ser (0x4#4 ++ d) = .sTxCount d ∧ decode .ser (0x5#4 ++ d) = .sTxFull d ∧
      decode .ser (0x6#4 ++ d) = .sReserved6 d ∧ decode .ser (0x7#4 ++ d) = .sReserved7 d ∧
      decode .ser (0x8#4 ++ d) = .sReserved8 d ∧ decode .ser (0x9#4 ++ d) = .sReserved9 d ∧
      decode .ser (0xA#4 ++ d) = .sReservedA d ∧ decode .ser (0xB#4 ++ d) = .sReservedB d ∧
      decode .ser (0xC#4 ++ d) = .sReservedC d ∧ decode .ser (0xD#4 ++ d) = .sReservedD d ∧
      decode .ser (0xE#4 ++ d) = .sReservedE d ∧ decode .ser (0xF#4 ++ d) = .sReservedF d)

/-- Derived from 95_test_vectors.md section 2.1: words written out there, on both ports. -/
def Obligations.WrittenWordsDecode : Prop :=
  decode .app 0x141#12 = .aTxEnq 0x41 ∧ decode .app 0x1FF#12 = .aTxEnq 0xFF ∧ decode .app 0x2AB#12 = .aTxCount 0xAB ∧
  decode .app 0x600#12 = .aErrRead 0 ∧ decode .app 0x9AB#12 = .aReserved9 0xAB ∧ decode .app 0xFFF#12 = .aReservedF 0xFF ∧
  decode .ser 0x141#12 = .sIsr 0x41 ∧ decode .ser 0x310#12 = .sRxEnq 0x10 ∧ decode .ser 0x5AB#12 = .sTxFull 0xAB ∧
  decode .ser 0x600#12 = .sReserved6 0 ∧ decode .ser 0xFFF#12 = .sReservedF 0xFF

/-- R114: on every command but `A_TX_ENQ` and `S_RX_ENQ`, bits [7:0] of the word change nothing. -/
def Obligations.UnusedByteHasNoEffect : Prop :=
  ∀ (p : Port) (op : BitVec 4) (d d' : Byte) (s : State),
    ¬ (p = .app ∧ op = 1) → ¬ (p = .ser ∧ op = 3) →
      exec (decode p (op ++ d)) s = exec (decode p (op ++ d')) s

/-- R159, R210: a reserved code answers `rsp(0, 0, 0, 1)` on its port and does nothing else. -/
def Obligations.ReservedCodesOnlySetIll : Prop :=
  ∀ (d : Byte) (s : State),
    (∀ i ∈ [Instr.aReserved8 d, .aReserved9 d, .aReservedA d, .aReservedB d, .aReservedC d, .aReservedD d,
        .aReservedE d, .aReservedF d],
      exec i s = .next { s with aRsp := { val := 0, f0 := false, f1 := false, ill := true }, aRspValid := true }) ∧
    (∀ i ∈ [Instr.sReserved6 d, .sReserved7 d, .sReserved8 d, .sReserved9 d, .sReservedA d, .sReservedB d,
        .sReservedC d, .sReservedD d, .sReservedE d, .sReservedF d],
      exec i s = .next { s with sRsp := { val := 0, f0 := false, f1 := false, ill := true }, sRspValid := true }) ∧
    (∀ w : Cmd, 8 ≤ (opField w).toNat →
      ∃ t, exec (decode .app w) s = .next t ∧ t.aRsp.pack = 0x40000#19) ∧
    (∀ w : Cmd, 6 ≤ (opField w).toNat →
      ∃ t, exec (decode .ser w) s = .next t ∧ t.sRsp.pack = 0x40000#19)

/-- Derived from 30_encoding.md R116: where the fields of a response stand in the nineteen bits. -/
def Obligations.ResponseWordLayout : Prop :=
  ∀ r : Response, r.pack.extractLsb' 0 16 = r.val ∧ r.pack.getLsbD 16 = r.f0 ∧ r.pack.getLsbD 17 = r.f1 ∧
    r.pack.getLsbD 18 = r.ill

/-- R16: gray code, its inverse, and the one-bit change of consecutive codes, for every pointer width. -/
def Obligations.GrayCodeInverseAndOneBitChange : Prop :=
  (∀ b : Ptr, gray b = b ^^^ (b >>> 1) ∧ ungray (gray b) = b) ∧
  (∀ g : Ptr, gray (ungray g) = g ∧
    ∀ i : Nat, i < 15 → (ungray g).getLsbD i = ((ungray g).getLsbD (i + 1) ^^ g.getLsbD i)) ∧
  (∀ (aw : Fin 16) (b : Ptr), inRange aw b = true →
    inRange aw (gray b) = true ∧ inRange aw (ungray b) = true ∧ (ungray b).getLsbD aw = b.getLsbD aw ∧
    ∃ k : Nat, k ≤ aw.val ∧ gray (ptrSucc aw b) ^^^ gray b = BitVec.twoPow 16 k)

/-- Derived from 00_scope.md R15: `dist` is the difference modulo `M_f` and counts increments, `+1` is one of them,
and a slot is the position modulo `C_f`. -/
def Obligations.DistanceCountsIncrements : Prop :=
  ∀ (aw : Fin 16) (a b : Ptr), inRange aw a = true → inRange aw b = true →
    (dist aw a b : Int) = ((a.toNat : Int) - (b.toNat : Int)) % (2 ^ (aw.val + 1) : Int) ∧
    ptrAdd aw b (dist aw a b) = a ∧
    (∀ k : Nat, k < 2 ^ (aw.val + 1) → dist aw (ptrAdd aw b k) b = k) ∧
    ptrSucc aw b = ptrAdd aw b 1 ∧
    slotOf aw b < 2 ^ aw.val ∧ slotOf aw (ptrSucc aw b) = (slotOf aw b + 1) % 2 ^ aw.val

/-! ### Commands -/

/-- R151, R205: the no-operations answer `rsp(0, 0, 0, 0)` on their port and do nothing else. -/
def Obligations.NopsOnlyAnswer : Prop :=
  ∀ (d : Byte) (s : State),
    opField (encode (.aNop d)) = 0 ∧ opField (encode (.sNop d)) = 0 ∧
    exec (.aNop d) s =
      .next { s with aRsp := { val := 0, f0 := false, f1 := false, ill := false }, aRspValid := true } ∧
    exec (.sNop d) s =
      .next { s with sRsp := { val := 0, f0 := false, f1 := false, ill := false }, sRspValid := true }

/-- Derived from 40_app_port.md R152 and 42_cdc_steps.md R256: `A_TX_ENQ` stores and counts a byte where the producer's
view is not full, and otherwise drops it, requests or remembers a flush, and sets `err_tx`. -/
def Obligations.TxEnqueueResult : Prop :=
  ∀ (b : Byte) (s : State),
    (s.txf.wfull = false → exec (.aTxEnq b) s = .next { s with
        txf := { s.txf with mem := s.txf.mem.write (slotOf s.txf.aw s.txf.wptr) b,
                            wptr := ptrSucc s.txf.aw s.txf.wptr },
        aRsp := { val := 0, f0 := true, f1 := false, ill := false }, aRspValid := true }) ∧
    (s.txf.wfull = true → s.txf.flReq = s.txf.fa → exec (.aTxEnq b) s = .next { s with
        txf := { s.txf with flMark := s.txf.wptr, flReq := !s.txf.flReq }, errTx := true,
        aRsp := { val := 0, f0 := false, f1 := false, ill := false }, aRspValid := true }) ∧
    (s.txf.wfull = true → s.txf.flReq ≠ s.txf.fa → exec (.aTxEnq b) s = .next { s with
        txf := { s.txf with flNext := s.txf.wptr, flPend := true }, errTx := true,
        aRsp := { val := 0, f0 := false, f1 := false, ill := false }, aRspValid := true })

/-- Derived from 41_serial_port.md R203, R207 and 42_cdc_steps.md R256: `S_RX_ENQ`, the mirror of `A_TX_ENQ`, which arms
nothing. -/
def Obligations.RxEnqueueResult : Prop :=
  ∀ (b : Byte) (s : State),
    (s.rxf.wfull = false → exec (.sRxEnq b) s = .next { s with
        rxf := { s.rxf with mem := s.rxf.mem.write (slotOf s.rxf.aw s.rxf.wptr) b,
                            wptr := ptrSucc s.rxf.aw s.rxf.wptr },
        sRsp := { val := 0, f0 := true, f1 := false, ill := false }, sRspValid := true }) ∧
    (s.rxf.wfull = true → s.rxf.flReq = s.rxf.fa → exec (.sRxEnq b) s = .next { s with
        rxf := { s.rxf with flMark := s.rxf.wptr, flReq := !s.rxf.flReq }, errRx := true,
        sRsp := { val := 0, f0 := false, f1 := false, ill := false }, sRspValid := true }) ∧
    (s.rxf.wfull = true → s.rxf.flReq ≠ s.rxf.fa → exec (.sRxEnq b) s = .next { s with
        rxf := { s.rxf with flNext := s.rxf.wptr, flPend := true }, errRx := true,
        sRsp := { val := 0, f0 := false, f1 := false, ill := false }, sRspValid := true })

/-- Derived from 40_app_port.md R155 and 30_encoding.md R117: `A_RX_DEQ` takes the byte at `rhead`, or answers absent
and changes nothing else. -/
def Obligations.RxDequeueResult : Prop :=
  ∀ (d : Byte) (s : State),
    (s.rxf.rcount = 0 → exec (.aRxDeq d) s = .next { s with
        aRsp := { val := 0, f0 := false, f1 := false, ill := false }, aRspValid := true }) ∧
    (s.rxf.rcount ≠ 0 → exec (.aRxDeq d) s = .next { s with
        rxf := { s.rxf with rhead := ptrSucc s.rxf.aw s.rxf.rhead },
        aRsp := { val := (s.rxf.mem.read (slotOf s.rxf.aw s.rxf.rhead)).zeroExtend 16, f0 := true, f1 := false,
                  ill := false },
        aRspValid := true })

/-- Derived from 41_serial_port.md R202, R206: `S_TX_DEQ` takes the byte at `rhead` and leaves `armed`, or answers
absent and disarms. -/
def Obligations.TxDequeueResult : Prop :=
  ∀ (d : Byte) (s : State),
    (s.txf.rcount = 0 → exec (.sTxDeq d) s = .next { s with
        armed := false,
        sRsp := { val := 0, f0 := false, f1 := false, ill := false }, sRspValid := true }) ∧
    (s.txf.rcount ≠ 0 → exec (.sTxDeq d) s = .next { s with
        txf := { s.txf with rhead := ptrSucc s.txf.aw s.txf.rhead },
        sRsp := { val := (s.txf.mem.read (slotOf s.txf.aw s.txf.rhead)).zeroExtend 16, f0 := true, f1 := false,
                  ill := false },
        sRspValid := true })

/-- Derived from the pseudocode of R153, R154, R156, R208, R209 with R40, R41: each count and full command answers
from its own domain's view and does nothing else. -/
def Obligations.CountAndFullResults : Prop :=
  ∀ (d : Byte) (s : State),
    exec (.aTxCount d) s = .next { s with
      aRsp := { val := BitVec.ofNat 16 (dist s.txf.aw s.txf.wptr (ungray s.txf.rq)), f0 := false, f1 := false,
                ill := false }, aRspValid := true } ∧
    exec (.aTxFull d) s = .next { s with
      aRsp := { val := 0, f0 := decide (dist s.txf.aw s.txf.wptr (ungray s.txf.rq) = 2 ^ s.txf.aw.val), f1 := false,
                ill := false }, aRspValid := true } ∧
    exec (.aRxCount d) s = .next { s with
      aRsp := { val := BitVec.ofNat 16 (if s.rxf.drain then 0 else dist s.rxf.aw (ungray s.rxf.wq) s.rxf.rhead),
                f0 := false, f1 := false, ill := false }, aRspValid := true } ∧
    exec (.sTxCount d) s = .next { s with
      sRsp := { val := BitVec.ofNat 16 (if s.txf.drain then 0 else dist s.txf.aw (ungray s.txf.wq) s.txf.rhead),
                f0 := false, f1 := false, ill := false }, sRspValid := true } ∧
    exec (.sTxFull d) s = .next { s with
      sRsp := { val := 0,
                f0 := decide ((if s.txf.drain then 0 else dist s.txf.aw (ungray s.txf.wq) s.txf.rhead) =
                  2 ^ s.txf.aw.val),
                f1 := false, ill := false }, sRspValid := true }

/-- R10: occupancies lie in `0 .. C_f`, `C_f` is at most `2^15`, and the counts the ports return are not truncated. -/
def Obligations.CountsFitTheirField : Prop :=
  ∀ (d : Byte) (s : State), s.Inv →
    (∀ f : FifoId, (s.fifo f).wcount ≤ (s.fifo f).capacity ∧ (s.fifo f).rcount ≤ (s.fifo f).capacity ∧
      (s.fifo f).capacity ≤ 2 ^ 15) ∧
    (∃ t, exec (.aTxCount d) s = .next t ∧ t.aRsp.val.toNat = s.txf.wcount) ∧
    (∃ t, exec (.aRxCount d) s = .next t ∧ t.aRsp.val.toNat = s.rxf.rcount) ∧
    (∃ t, exec (.sTxCount d) s = .next t ∧ t.sRsp.val.toNat = s.txf.rcount)

/-- Derived from 40_app_port.md R154 (corner cases): in every state `A_TX_FULL` says whether an `A_TX_ENQ` issued next
overflows, and agrees with `A_TX_COUNT`. -/
def Obligations.FullFlagPredictsOverflow : Prop :=
  ∀ (b d : Byte) (s : State), ∃ t u v,
    exec (.aTxFull d) s = .next t ∧ exec (.aTxEnq b) t = .next u ∧ exec (.aTxCount d) s = .next v ∧
    u.aRsp.f0 = !t.aRsp.f0 ∧ (t.aRsp.f0 = true ↔ v.aRsp.val.toNat = s.txf.capacity)

/-- Derived from 40_app_port.md R157 and 10_state.md R46: `A_ERR_READ` returns the flag and its causes; `a_err` shows
the same flag. -/
def Obligations.ErrorFlagRead : Prop :=
  ∀ (d : Byte) (s : State), s.outputs.aErr = (s.errTx || s.errRxQ) ∧
    ∃ v : Count, v.toNat = 2 * s.errRxQ.toNat + s.errTx.toNat ∧
      exec (.aErrRead d) s = .next { s with
        aRsp := { val := v, f0 := s.errTx || s.errRxQ, f1 := false, ill := false }, aRspValid := true }

/-- Derived from 40_app_port.md R158: `A_ERR_CLR` clears `err_tx` and requests the clear of `err_rx`, or remembers it
where a request is outstanding. -/
def Obligations.ErrorClearRequest : Prop :=
  ∀ (d : Byte) (s : State),
    (s.ecReq = s.ecAckQ → exec (.aErrClr d) s = .next { s with
        errTx := false, ecReq := !s.ecReq,
        aRsp := { val := 0, f0 := false, f1 := false, ill := false }, aRspValid := true }) ∧
    (s.ecReq ≠ s.ecAckQ → exec (.aErrClr d) s = .next { s with
        errTx := false, ecPend := true,
        aRsp := { val := 0, f0 := false, f1 := false, ill := false }, aRspValid := true })

/-- Derived from 41_serial_port.md R201 to R204 and 60_exceptions.md R307, R315: `S_ISR`, with both conditions sampled
at its start; what it changes, and that it changes nothing else. (R35 raises a strobe in its step and keeps it 0
otherwise. That `exec` alone adds its strobes to those that stand, which `step` lets fall before it, is the model's
choice, notes/assumptions/10.md.) -/
def Obligations.IsrServesBothConditions : Prop :=
  ∀ (d : Byte) (s : State),
    let txp := s.periph.txe && s.armed
    let takes := txp && decide (s.txf.rcount ≠ 0)
    let tb := s.txf.mem.read (slotOf s.txf.aw s.txf.rhead)
    let rxp := s.periph.rxne
    let rb := s.periph.rdr
    ∃ t, exec (.sIsr d) s = .next t ∧
      t.txf = (if takes then { s.txf with rhead := ptrSucc s.txf.aw s.txf.rhead } else s.txf) ∧
      t.armed = (s.armed && !(txp && decide (s.txf.rcount = 0))) ∧
      t.rxf = (if !rxp then s.rxf
        else if s.rxf.wfull then
          if s.rxf.flReq = s.rxf.fa then { s.rxf with flMark := s.rxf.wptr, flReq := !s.rxf.flReq }
          else { s.rxf with flNext := s.rxf.wptr, flPend := true }
        else { s.rxf with mem := s.rxf.mem.write (slotOf s.rxf.aw s.rxf.wptr) rb,
                          wptr := ptrSucc s.rxf.aw s.rxf.wptr }) ∧
      t.errRx = (s.errRx || (rxp && s.rxf.wfull)) ∧
      t.periph = { s.periph with tdr := if takes then tb else s.periph.tdr, txe := s.periph.txe && !takes,
                                 rxne := false } ∧
      t.strobes = { pWr := if takes then some tb else s.strobes.pWr, pRd := s.strobes.pRd || rxp,
                    pClrRxne := s.strobes.pClrRxne || rxp } ∧
      t.sRsp = { val := (if rxp then rb else 0) ++ (if takes then tb else 0), f0 := takes, f1 := rxp, ill := false } ∧
      t = { s with txf := t.txf, armed := t.armed, rxf := t.rxf, errRx := t.errRx, periph := t.periph,
                   strobes := t.strobes, sRsp := t.sRsp, sRspValid := true }

/-- R99: the observers change no state other than their port's response registers (and its valid output), however
often they are called. -/
def Obligations.ObserversChangeNothing : Prop :=
  ∀ (d : Byte) (s : State),
    (∀ i ∈ [Instr.aTxCount d, .aTxFull d, .aRxCount d, .aErrRead d, .aNop d],
      ∃ t, exec i s = .next t ∧ t = { s with aRsp := t.aRsp, aRspValid := true } ∧ exec i t = .next t) ∧
    (∀ i ∈ [Instr.sTxCount d, .sTxFull d, .sNop d],
      ∃ t, exec i s = .next t ∧ t = { s with sRsp := t.sRsp, sRspValid := true } ∧ exec i t = .next t)

/-! ### Internal steps -/

/-- R251, R252: the publish steps, where they are enabled and where they are not, and their domains. -/
def Obligations.PublishSteps : Prop :=
  ∀ (f : FifoId) (s : State), s.inReset = false →
    (agentOf (.internal (.wPub f)) = writeDomain f ∧ agentOf (.internal (.rPub f)) = readDomain f) ∧
    ((s.fifo f).wpub ≠ (if (s.fifo f).flReq ≠ (s.fifo f).fa then (s.fifo f).flMark else (s.fifo f).wptr) →
      ∃ t, stepEvent (.internal (.wPub f)) s = .next t ∧
        t = s.setFifo f { s.fifo f with wpub := ptrSucc (s.fifo f).aw (s.fifo f).wpub } ∧
        (t.fifo f).wgray = gray (ptrSucc (s.fifo f).aw (s.fifo f).wpub)) ∧
    ((s.fifo f).wpub = (if (s.fifo f).flReq ≠ (s.fifo f).fa then (s.fifo f).flMark else (s.fifo f).wptr) →
      stepEvent (.internal (.wPub f)) s = .next s) ∧
    ((s.fifo f).rpub ≠ (s.fifo f).rhead →
      ∃ t, stepEvent (.internal (.rPub f)) s = .next t ∧
        t = s.setFifo f { s.fifo f with rpub := ptrSucc (s.fifo f).aw (s.fifo f).rpub } ∧
        (t.fifo f).rgray = gray (ptrSucc (s.fifo f).aw (s.fifo f).rpub)) ∧
    ((s.fifo f).rpub = (s.fifo f).rhead → stepEvent (.internal (.rPub f)) s = .next s)

/-- R253, R254: which draws a synchroniser admits, what each does and in which domain, and that the catch-up draw is
admitted wherever the view and its source differ. -/
def Obligations.SynchroniserDraws : Prop :=
  ∀ (f : FifoId) (v : Nat) (s : State), s.inReset = false →
    let x := s.fifo f
    let p : Ptr := BitVec.ofNat 16 v
    let r2w := v < 2 ^ (x.aw.val + 1) ∧ 1 ≤ dist x.aw p x.rqb ∧ dist x.aw p x.rqb ≤ dist x.aw x.rpub x.rqb
    let w2r := v < 2 ^ (x.aw.val + 1) ∧ 1 ≤ dist x.aw p x.wqb ∧ dist x.aw p x.wqb ≤ dist x.aw x.wpub x.wqb
    (agentOf (.internal (.syncR2W f v)) = writeDomain f ∧ agentOf (.internal (.syncW2R f v)) = readDomain f) ∧
    (x.rqb ≠ x.rpub → r2w → ∃ t, stepEvent (.internal (.syncR2W f v)) s = .next t ∧
      t = s.setFifo f { x with rq := gray p } ∧ (t.fifo f).rqb = p) ∧
    (¬ (x.rqb ≠ x.rpub ∧ r2w) → stepEvent (.internal (.syncR2W f v)) s = .next s) ∧
    (x.wqb ≠ x.wpub → w2r → ∃ t, stepEvent (.internal (.syncW2R f v)) s = .next t ∧
      t.fifo f = (if x.drain then Fifo.advance { x with wq := gray p } else { x with wq := gray p }) ∧
      (t.fifo f).wqb = p ∧
      t = { s.setFifo f (t.fifo f) with armed := s.armed || f == .tx }) ∧
    (¬ (x.wqb ≠ x.wpub ∧ w2r) → stepEvent (.internal (.syncW2R f v)) s = .next s) ∧
    (s.Inv → (x.rqb ≠ x.rpub → s.internalEnabled (.syncR2W f x.rpub.toNat) = true) ∧
      (x.wqb ≠ x.wpub → s.internalEnabled (.syncW2R f x.wpub.toNat) = true))

/-- R255, R256: the helpers `ADVANCE` and `FLUSH_REQ`. -/
def Obligations.AdvanceAndFlushRequest : Prop :=
  ∀ f : Fifo,
    f.advance = (if dist f.aw f.target f.rhead ≤ dist f.aw f.wqb f.rhead then
        { f with rhead := f.target, drain := false } else { f with rhead := f.wqb }) ∧
    f.flushReq = (if f.flReq = f.fa then { f with flMark := f.wptr, flReq := !f.flReq }
      else { f with flNext := f.wptr, flPend := true })

/-- R257, R258: `CAPTURE` and `ACK_SYNC`, where they are enabled and where they are not, and their domains. -/
def Obligations.FlushHandshakeSteps : Prop :=
  ∀ (f : FifoId) (s : State), s.inReset = false →
    let x := s.fifo f
    (agentOf (.internal (.capture f)) = readDomain f ∧ agentOf (.internal (.ackSync f)) = writeDomain f) ∧
    (x.fr ≠ x.flReq → ∃ t, stepEvent (.internal (.capture f)) s = .next t ∧
      t.fifo f = (if x.flMark = x.rhead then
          { x with fr := x.flReq, target := x.flMark, flAck := x.flReq, drain := false }
        else Fifo.advance { x with fr := x.flReq, target := x.flMark, flAck := x.flReq, drain := true }) ∧
      t = { s.setFifo f (t.fifo f) with armed := s.armed || f == .tx }) ∧
    (x.fr = x.flReq → stepEvent (.internal (.capture f)) s = .next s) ∧
    (x.fa ≠ x.flAck → stepEvent (.internal (.ackSync f)) s = .next (s.setFifo f
      (if x.flAck = x.flReq ∧ x.flPend = true then
        { x with fa := x.flAck, flMark := x.flNext, flReq := !x.flReq, flPend := false }
       else { x with fa := x.flAck }))) ∧
    (x.fa = x.flAck → stepEvent (.internal (.ackSync f)) s = .next s)

/-- R259, R260, R261: the three steps of the error latch and its clear, where they are enabled and where they are not
(`ERR_RX_SYNC` changes nothing where the view has caught up), and their domains. -/
def Obligations.ErrorHandshakeSteps : Prop :=
  ∀ s : State, s.inReset = false →
    (agentOf (.internal .errRxSync) = .app ∧ agentOf (.internal .ecReqSync) = .ser ∧
      agentOf (.internal .ecAckSync) = .app) ∧
    (s.internalEnabled .errRxSync = true ↔ s.errRxQ ≠ s.errRx) ∧
    stepEvent (.internal .errRxSync) s = .next { s with errRxQ := s.errRx } ∧
    (s.ecReqQ ≠ s.ecReq → stepEvent (.internal .ecReqSync) s =
      .next { s with ecReqQ := s.ecReq, errRx := false, ecAck := s.ecReq }) ∧
    (s.ecReqQ = s.ecReq → stepEvent (.internal .ecReqSync) s = .next s) ∧
    (s.ecAckQ ≠ s.ecAck → stepEvent (.internal .ecAckSync) s = .next
      (if s.ecAck = s.ecReq ∧ s.ecPend = true then { s with ecAckQ := s.ecAck, ecReq := !s.ecReq, ecPend := false }
       else { s with ecAckQ := s.ecAck })) ∧
    (s.ecAckQ = s.ecAck → stepEvent (.internal .ecAckSync) s = .next s)

/-- Derived from 42_cdc_steps.md R250: but for reset, a published pointer stays or moves by one, in a step of its own
domain, so its gray output changes in at most one bit. -/
def Obligations.PublishedPointersCountByOne : Prop :=
  ∀ (e : Event) (s t : State) (f : FifoId), s.Inv → isResetEvent e = false → stepEvent e s = .next t →
    ((t.fifo f).wpub = (s.fifo f).wpub ∨
      ((t.fifo f).wpub = ptrSucc (s.fifo f).aw (s.fifo f).wpub ∧ e = .internal (.wPub f) ∧
        ∃ k, k ≤ (s.fifo f).aw.val ∧ (t.fifo f).wgray ^^^ (s.fifo f).wgray = BitVec.twoPow 16 k)) ∧
    ((t.fifo f).rpub = (s.fifo f).rpub ∨
      ((t.fifo f).rpub = ptrSucc (s.fifo f).aw (s.fifo f).rpub ∧ e = .internal (.rPub f) ∧
        ∃ k, k ≤ (s.fifo f).aw.val ∧ (t.fifo f).rgray ^^^ (s.fifo f).rgray = BitVec.twoPow 16 k))

/-! ### Error flag, interrupt, peripheral -/

/-- R44: what sets and what clears each error latch, when the APP view of the RX latch changes, and that reset clears
all three. -/
def Obligations.ErrorLatchesSticky : Prop :=
  (∀ (e : Event) (s t : State), isResetEvent e = false → stepEvent e s = .next t →
    t.errTx = ((s.errTx && !(!s.inReset && (match e with | .appCmd w => opField w == 7 | _ => false))) ||
      ((offeredBy .tx e s).isSome && s.txf.wfull)) ∧
    t.errRx = ((s.errRx && !(!s.inReset && e == .internal .ecReqSync && s.ecReqQ != s.ecReq)) ||
      ((offeredBy .rx e s).isSome && s.rxf.wfull)) ∧
    t.errRxQ = (if !s.inReset && e == .internal .errRxSync then s.errRx else s.errRxQ)) ∧
  (∀ s : State, ∃ t, stepEvent (.resetPins false false) s = .next t ∧
    t.errTx = false ∧ t.errRx = false ∧ t.errRxQ = false)

/-- R305: the armed/quiescent machine, each row of its table, and that there is no other transition. -/
def Obligations.ArmedStateMachine : Prop :=
  (∀ c : Config, (State.ofConfig c).armed = false) ∧
  (∀ (v : Nat) (s : State), s.inReset = false → s.internalEnabled (.syncW2R .tx v) = true →
    ∃ t, stepEvent (.internal (.syncW2R .tx v)) s = .next t ∧ t.armed = true) ∧
  (∀ s : State, s.inReset = false → s.internalEnabled (.capture .tx) = true →
    ∃ t, stepEvent (.internal (.capture .tx)) s = .next t ∧ t.armed = true) ∧
  (∀ (e : Event) (s : State), asksFor .tx e s = true → s.txf.rcount = 0 →
    ∃ t, stepEvent e s = .next t ∧ t.armed = false) ∧
  (∀ (e : Event) (s t : State), isResetEvent e = false → stepEvent e s = .next t → t.armed ≠ s.armed →
    (t.armed = true ∧ ((∃ v, e = .internal (.syncW2R .tx v) ∧ s.internalEnabled (.syncW2R .tx v) = true) ∨
      (e = .internal (.capture .tx) ∧ s.internalEnabled (.capture .tx) = true))) ∨
    (t.armed = false ∧ asksFor .tx e s = true ∧ s.txf.rcount = 0))

/-- R306: the interrupt condition, and where it acts. In AUTO mode the dispatcher runs `S_ISR` exactly where `irq = 1`
and a word on the SER port is ignored; in EXTERNAL mode the dispatcher does nothing. -/
def Obligations.InterruptConditionDispatches : Prop :=
  ∀ (w : Cmd) (s : State), s.inReset = false →
    s.outputs.irq = ((s.periph.txe && s.armed) || s.periph.rxne) ∧ s.outputs.pTxeie = s.armed ∧
    (s.serMode = .auto → s.outputs.irq = true → stepEvent .dispatch s = exec (.sIsr 0) s) ∧
    (s.serMode = .auto → s.outputs.irq = false → stepEvent .dispatch s = .next s) ∧
    (s.serMode = .external → stepEvent .dispatch s = .next s) ∧
    (s.serMode = .auto → stepEvent (.serCmd w) s = .next s)

/-- R314, and the effect of R313 (whose fairness is in Safety): the two steps of the reference peripheral. -/
def Obligations.PeripheralSteps : Prop :=
  Config.default.rxOvrPolicy = .keepOld ∧
  ∀ (b : Byte) (s : State), s.inReset = false →
    (s.periph.txe = false → stepEvent .periphTxc s =
      .next { s with periph := { s.periph with lineOut := s.periph.lineOut ++ [s.periph.tdr], txe := true } }) ∧
    (s.periph.txe = true → stepEvent .periphTxc s = .next s) ∧
    (s.periph.rxne = false → stepEvent (.periphRxa b) s =
      .next { s with periph := { s.periph with lineIn := s.periph.lineIn ++ [b], rdr := b, rxne := true } }) ∧
    (s.periph.rxne = true → s.ovrPolicy = .keepOld → stepEvent (.periphRxa b) s =
      .next { s with periph := { s.periph with lineIn := s.periph.lineIn ++ [b], ore := true } }) ∧
    (s.periph.rxne = true → s.ovrPolicy = .takeNew → stepEvent (.periphRxa b) s =
      .next { s with periph := { s.periph with lineIn := s.periph.lineIn ++ [b], ore := true, rdr := b } })

/-- Derived from 10_state.md R35, 41_serial_port.md R204 and 60_exceptions.md R315, R316: a strobe is up only after an
`S_ISR` step, the data register is written only where it could take a byte and is taken at once, and the clear strobe
clears the receive condition at once. -/
def Obligations.StrobesOnlyInIsr : Prop :=
  ∀ (e : Event) (s t : State), stepEvent e s.strobesDown = .next t →
    (t.strobes ≠ Strobes.none → s.inReset = false ∧ runsIsr e s = true ∧ s.irq = true) ∧
    (∀ b, t.strobes.pWr = some b →
      s.periph.txe = true ∧ s.armed = true ∧ t.periph.tdr = b ∧ t.periph.txe = false) ∧
    (t.strobes.pClrRxne = true →
      s.periph.rxne = true ∧ t.strobes.pRd = true ∧ t.periph.rxne = false)

/-- Derived from 10_state.md R47 and 30_encoding.md R118: only commands and the dispatcher write response registers; a
response stays until the next command of its port, and its valid output lasts until a cycle without a command. -/
def Obligations.ResponsesWrittenOnlyByCommands : Prop :=
  ∀ (e : Event) (s t : State), isResetEvent e = false → stepEvent e s = .next t →
    ((∀ w, e ≠ .appCmd w) → t.aRsp = s.aRsp ∧ (e ≠ .appIdle → t.aRspValid = s.aRspValid)) ∧
    ((∀ w, e ≠ .serCmd w) → e ≠ .dispatch → t.sRsp = s.sRsp ∧ (e ≠ .serIdle → t.sRspValid = s.sRspValid)) ∧
    (∀ w, e = .appCmd w → s.inReset = false → t.aRspValid = true) ∧
    (∀ w, e = .serCmd w → s.inReset = false → s.serMode = .external → t.sRspValid = true) ∧
    (e = .dispatch → s.inReset = false → s.dispatchEnabled = true → t.sRspValid = true) ∧
    (s.inReset = false → (e = .appIdle → t.aRspValid = false) ∧ (e = .serIdle → t.sRspValid = false))

/-! ### Reset and configuration -/

/-- Derived from 10_state.md R48 and 60_exceptions.md R312: the registers the spec gives a reset value, for every
configuration, and the derived quantities after reset. Storage, `tdr` and `rdr` are U there and not stated. -/
def Obligations.ResetValues : Prop :=
  ∀ (c : Config), let s := State.ofConfig c
    (∀ f : FifoId, let x := s.fifo f
      x.wptr = 0 ∧ x.wpub = 0 ∧ x.rq = 0 ∧ x.flMark = 0 ∧ x.flNext = 0 ∧ x.flReq = false ∧ x.flPend = false ∧
      x.fa = false ∧ x.rhead = 0 ∧ x.rpub = 0 ∧ x.wq = 0 ∧ x.target = 0 ∧ x.fr = false ∧ x.flAck = false ∧
      x.drain = false ∧ x.wgray = 0 ∧ x.rgray = 0 ∧ x.wcount = 0 ∧ x.rcount = 0 ∧ x.wfull = false ∧
      x.rfull = false) ∧
    s.armed = false ∧ s.errTx = false ∧ s.errRx = false ∧ s.errRxQ = false ∧ s.ecReq = false ∧ s.ecPend = false ∧
    s.ecReqQ = false ∧ s.ecAck = false ∧ s.ecAckQ = false ∧ s.aRsp.pack = 0 ∧ s.sRsp.pack = 0 ∧ s.err = false ∧
    s.outputs.pTxeie = false ∧ s.periph.txe = true ∧ s.periph.rxne = false ∧ s.periph.ore = false ∧
    s.periph.lineOut = [] ∧ s.periph.lineIn = []

/-- Derived from 70_reset_and_hazards.md R350: a joint reset, taken from any state, puts every register to its reset
value; the block then ignores every other event until both inputs are high, in whichever order they rise, and starts
from that state. (The model's choices in it: that the schedule of events to come is kept, notes/assumptions/8.md; what
storage, `tdr` and `rdr` read as, which are U in the spec, 6.md and 7.md; that the valid outputs are 0, 9.md; and that
the steps of the peripheral are ignored meanwhile, 27.md.) -/
def Obligations.JointResetHoldsAndRestarts : Prop :=
  ∀ s : State, ∃ t, stepEvent (.resetPins false false) s = .next t ∧ t.inReset = true ∧
    (∀ e, isResetEvent e = false → stepEvent e t = .next t) ∧
    ∀ a b : Bool, (a && b) = false → ∃ u, stepEvent (.resetPins a b) t = .next u ∧ u.inReset = true ∧
      u = { t with rstAN := a, rstSN := b } ∧
      stepEvent (.resetPins true true) u =
        .next { State.ofConfig s.config with pending := s.pending, drawn := s.drawn }

/-- R351: asserting one reset alone has no transition. -/
def Obligations.PartialResetRefused : Prop :=
  ∀ s : State, s.rstAN = true → s.rstSN = true →
    stepEvent (.resetPins false true) s = .refused .partialReset ∧
    stepEvent (.resetPins true false) s = .refused .partialReset

/-- Derived from 70_reset_and_hazards.md R350: after reset no internal step is enabled, there is no interrupt, and the
dispatcher is not enabled. -/
def Obligations.NothingEnabledAfterReset : Prop :=
  ∀ (c : Config) (k : InternalStep), (State.ofConfig c).internalEnabled k = false ∧
    (State.ofConfig c).irq = false ∧ (State.ofConfig c).dispatchEnabled = false

/-- R8: a capacity is accepted exactly where it is `2^AW` with `AW` in 0..15, each FIFO on its own; the machine is
built with it; and no transition changes it. -/
def Obligations.CapacityIsAFixedPowerOfTwo : Prop :=
  (∀ (c : Nat) (aw : Fin 16), widthOfCapacity c = some aw ↔ c = 2 ^ aw.val) ∧
  (∀ (cTx cRx n : Nat) (m : SerCmdMode) (p : RxOvrPolicy),
    ((∃ s, boot cTx cRx m p n = .ok s) ↔
      (∃ a : Fin 16, cTx = 2 ^ a.val) ∧ (∃ b : Fin 16, cRx = 2 ^ b.val) ∧ 2 ≤ n) ∧
    ∀ s, boot cTx cRx m p n = .ok s → s.txf.capacity = cTx ∧ s.rxf.capacity = cRx) ∧
  (∀ (e : Event) (s t : State), stepEvent e s = .next t → t.config = s.config)

/-! ### Invariants -/

/-- The invariant holds after reset, in every configuration. -/
def Obligations.InvariantAtReset : Prop := ∀ c : Config, (State.ofConfig c).Inv

/-- Derived from 10_state.md R49 ("A model should prove these"): the invariant of both FIFOs (item 2 read as
notes/assumptions/14.md says), of the handshakes, of the enable bit and of a held reset is kept by every step. -/
def Obligations.StepKeepsInvariant : Prop := ∀ s t : State, s.Inv → step s = .next t → t.Inv

/-- Derived from 10_state.md R49 item 2: its clause on `fl_mark`, in the modular order of R15 and without a condition,
fails in a state that a run reaches: a flush was requested and acknowledged, none is outstanding, and the view has
passed the mark (notes/assumptions/14.md). `StepKeepsHistory` says what holds of the mark in every state. -/
def Obligations.StaleFlushMarkLeavesOrder : Prop :=
  ∃ (es : List Event) (t : State), (∀ e ∈ es, isResetEvent e = false) ∧
    runEvents es (State.ofConfig
      { awTx := 0, awRx := 0, serCmdMode := .external, rxOvrPolicy := .keepOld, syncStages := 2 }) = .next t ∧
    (∃ k u, runEvents (es.take k) (State.ofConfig
      { awTx := 0, awRx := 0, serCmdMode := .external, rxOvrPolicy := .keepOld, syncStages := 2 }) = .next u ∧
      u.txf.flushOutstanding = true ∧ u.txf.flMark = t.txf.flMark) ∧
    t.txf.flushOutstanding = false ∧ t.txf.fa = true ∧ ¬ t.txf.MarkInOrder

/-- Derived from 10_state.md R49 item 6: an accepted byte never lands in the slot of a position that the consumer has
not published past. -/
def Obligations.EnqueueNeverOverwrites : Prop :=
  ∀ f : Fifo, f.Inv → f.wfull = false → ∀ k, k < dist f.aw f.wptr f.rpub →
    slotOf f.aw (ptrAdd f.aw f.rpub k) ≠ slotOf f.aw f.wptr

/-- Derived from 20_memory.md R80, R83: but for reset, a slot changes only where a byte is accepted, which lands at
`slot(wptr)`; every other slot of both FIFOs reads as before. -/
def Obligations.StorageWrittenOnlyByEnqueue : Prop :=
  ∀ (e : Event) (s t : State) (f : FifoId) (a : Nat), Memory.wf (s.fifo f).mem → isResetEvent e = false →
    stepEvent e s = .next t →
    (t.fifo f).mem.read a =
      (match acceptedBy f e s with
       | [] => (s.fifo f).mem.read a
       | b :: _ => if a = slotOf (s.fifo f).aw (s.fifo f).wptr then b else (s.fifo f).mem.read a)

/-- Derived from 20_memory.md R88: the producer's count is at least, and the consumer's at most, the number of bytes
between the two local pointers. -/
def Obligations.LagPrinciple : Prop :=
  ∀ f : Fifo, f.Inv →
    f.contents.length = dist f.aw f.wptr f.rhead ∧ f.contents.length ≤ f.wcount ∧ f.rcount ≤ f.contents.length

/-- Derived from 20_memory.md R89: but for reset, each pointer view moves forward only and never passes the published
pointer it views. -/
def Obligations.ViewsMoveForward : Prop :=
  ∀ (e : Event) (s t : State) (f : FifoId), s.Inv → isResetEvent e = false → stepEvent e s = .next t →
    let x := s.fifo f
    (∃ k, k ≤ dist x.aw x.rpub x.rqb ∧ (t.fifo f).rqb = ptrAdd x.aw x.rqb k) ∧
    (∃ k, k ≤ dist x.aw x.wpub x.wqb ∧ (t.fifo f).wqb = ptrAdd x.aw x.wqb k)

/-- Derived from 10_state.md R48 and 20_memory.md R91: a step of one domain writes no register of the other; a
peripheral step writes no register of either; and none writes the schedule. -/
def Obligations.EachDomainWritesItsOwn : Prop :=
  ∀ (e : Event) (s t : State), stepEvent e s = .next t →
    (agentOf e = .app → t.serOwned = s.serOwned ∧ t.periph = s.periph) ∧
    (agentOf e = .ser → t.appOwned = s.appOwned) ∧
    (agentOf e = .peripheral → t.appOwned = s.appOwned ∧ t.serOwned = s.serOwned) ∧
    t.pending = s.pending ∧ t.drawn = s.drawn

/-- Derived from 40_app_port.md R150, 20_memory.md R84 and 60_exceptions.md R310: what a command does to its own domain
depends only on that domain's registers, the storage it reads and, on the SER side, the peripheral; and it does nothing
to the other domain. -/
def Obligations.CommandsReadTheirOwnDomain : Prop :=
  ∀ (i : Instr) (s s' : State), s.txf.aw = s'.txf.aw → s.rxf.aw = s'.rxf.aw →
    (i.port = .app → s.appOwned = s'.appOwned → s.rxf.mem = s'.rxf.mem →
      ∃ t t', exec i s = .next t ∧ exec i s' = .next t' ∧ t.appOwned = t'.appOwned ∧
        t.serOwned = s.serOwned ∧ t.periph = s.periph) ∧
    (i.port = .ser → s.serOwned = s'.serOwned → s.txf.mem = s'.txf.mem → s.periph = s'.periph →
      ∃ t t', exec i s = .next t ∧ exec i s' = .next t' ∧ t.serOwned = t'.serOwned ∧ t.periph = t'.periph ∧
        t.appOwned = s.appOwned)

/-! ### Streams, settling and the abstract model -/

/-- Derived from 20_memory.md R85, which the spec marks as its own inference (from 10_state.md R49 items 1 and 5), over
any run without a reset from a state of the invariant. The bytes taken from a FIFO, followed by those still
in it, are a subsequence of the bytes that were in it followed by those accepted, in order, each at most once. The
bytes missing from it are exactly those a flush discards: every byte leaves taken or discarded, in order, and where no
flush of that FIFO is being drained or captured in the run, the two are equal. -/
def Obligations.StreamsAreSubsequences : Prop :=
  ∀ (f : FifoId) (es : List Event) (s t : State), s.Inv → s.inReset = false →
    (∀ e ∈ es, isResetEvent e = false) → runEvents es s = .next t →
    List.Sublist (takenIn f es s ++ (t.fifo f).contents) ((s.fifo f).contents ++ acceptedIn f es s) ∧
    ((exitsIn f es s).map Exit.byte ++ (t.fifo f).contents = (s.fifo f).contents ++ acceptedIn f es s ∧
      (exitsIn f es s).filterMap Exit.obtained = takenIn f es s) ∧
    ((s.fifo f).drain = false → flushesIn f es s = false →
      takenIn f es s ++ (t.fifo f).contents = (s.fifo f).contents ++ acceptedIn f es s)

/-- Derived from 20_memory.md R97: settling ends, in a state of the invariant in which no internal step is enabled under
any draw, and both FIFOs agree on their pointers. (The order in which `settle` takes its steps and the number of steps
it ends within are the model's, notes/assumptions/24.md.) -/
def Obligations.SettleReachesSettled : Prop :=
  ∀ s : State, s.Inv → s.settle.settled = true ∧ s.settle.Inv ∧
    (∀ k, s.settle.internalEnabled k = false) ∧
    ∀ f : FifoId, (s.settle.fifo f).drain = false ∧ (s.settle.fifo f).wqb = (s.fifo f).wptr ∧
      (s.settle.fifo f).rqb = (s.settle.fifo f).rhead

/-- Derived from 20_memory.md R97: the end state of a settle does not depend on the order of the steps: whichever enabled
catch-up step is taken first, the settle ends in the same state. (`settle` takes its own steps in the model's order and
within the model's bound, notes/assumptions/24.md.) -/
def Obligations.SettleOrderIndependent : Prop :=
  ∀ (s : State) (k : InternalStep), s.Inv → k ∈ s.catchUpSteps → s.internalEnabled k = true →
    (s.internalEffect k).settle = s.settle

/-- Derived from 20_memory.md R96, R98: at a settled state every command returns what the ABS operation returns, leaves
the peripheral as the ABS operation leaves it, and the state after the following settle abstracts to the ABS state
after the operation. (The model's readings in it: the value of `A_ERR_READ` is not compared, notes/assumptions/25.md;
`read_pending(transmit-empty)` of ABS is the flag and the enable, 22.md.) -/
def Obligations.SettledCommandsRefineAbs : Prop :=
  ∀ (i : Instr) (s : State), s.Inv → s.inReset = false → s.settled = true →
    ∃ t, exec i s = .next t ∧
      (Abs.command i s.abs s.periph).1.returnedBy (t.rspOf i.port) = true ∧
      t.settle.abs = (Abs.command i s.abs s.periph).2.1 ∧
      t.settle.periph = (Abs.command i s.abs s.periph).2.2

/-- Derived from 42_cdc_steps.md R266 and 95_test_vectors.md P4: in AUTO mode, from a settled armed state, as many turns
of dispatcher and peripheral as there are bytes put the bytes on the line in order, and one more turn disarms and writes nothing to the peripheral. -/
def Obligations.TransmitDrainsInOrder : Prop :=
  ∀ s : State, s.Inv → s.inReset = false → s.settled = true → s.serMode = .auto → s.armed = true →
    s.periph.txe = true → s.periph.rxne = false →
    ∃ t, runEvents (s.txf.contents.flatMap fun _ => [.dispatch, .periphTxc]) s = .next t ∧
      t.periph.lineOut = s.periph.lineOut ++ s.txf.contents ∧ t.txf.contents = [] ∧
      ∃ u, stepEvent .dispatch t.strobesDown = .next u ∧ u.armed = false ∧ u.irq = false ∧
        u.strobes.pWr = none ∧ u.periph = t.periph

/-- Derived from 41_serial_port.md R204, R211 and 60_exceptions.md R314: in AUTO mode a byte that arrives at an empty
receive register is queued at the end of RXF by the next turn of the dispatcher, where the SER view is not full. -/
def Obligations.ReceivedByteIsQueued : Prop :=
  ∀ (b : Byte) (s : State), s.Inv → s.inReset = false → s.serMode = .auto → s.periph.rxne = false →
    s.rxf.wfull = false →
    ∃ t, runEvents [.periphRxa b, .dispatch] s = .next t ∧ t.rxf.contents = s.rxf.contents ++ [b] ∧
      t.periph.rxne = false ∧ t.periph.lineIn = s.periph.lineIn ++ [b] ∧ t.errRx = s.errRx

/-- Derived from 70_reset_and_hazards.md R356: where the producer's view is not full, no step of the SER domain or of the
peripheral makes an `A_TX_ENQ` overflow. -/
def Obligations.NotFullSurvivesOtherDomain : Prop :=
  ∀ (es : List Event) (b : Byte) (s t : State), s.inReset = false → s.txf.wfull = false →
    (∀ e ∈ es, agentOf e = .ser ∨ agentOf e = .peripheral) → runEvents es s = .next t →
    ∃ u, stepEvent (.appCmd (encode (.aTxEnq b))) t = .next u ∧ u.aRsp.f0 = true

/-- Derived from 42_cdc_steps.md R262, R266 and 70_reset_and_hazards.md R354: a byte that the SER domain can see, with
the data register empty, raises `irq`, and a turn of the dispatcher writes the oldest such byte to the peripheral. -/
def Obligations.VisibleByteIsSent : Prop :=
  ∀ s : State, s.Inv → s.inReset = false → s.serMode = .auto → s.periph.txe = true → s.txf.rcount ≠ 0 →
    s.irq = true ∧ ∃ t b, stepEvent .dispatch s = .next t ∧ s.txf.contents = b :: t.txf.contents ∧
      t.strobes.pWr = some b ∧ t.periph.tdr = b ∧ t.periph.txe = false

/-- Derived from 42_cdc_steps.md R263: under weak fairness of a synchroniser, once the published pointer stops moving the
view reaches it. -/
def Obligations.ViewsCatchUpUnderFairness : Prop :=
  ∀ (r : Nat → State) (sched : Nat → Event) (f : FifoId) (n : Nat), (r 0).Inv → IsRun r sched →
    (WeaklyFair r sched (.syncR2W f) → (∀ m, n ≤ m → ((r m).fifo f).rpub = ((r n).fifo f).rpub) →
      ∃ m, n ≤ m ∧ ((r m).fifo f).rqb = ((r m).fifo f).rpub) ∧
    (WeaklyFair r sched (.syncW2R f) → (∀ m, n ≤ m → ((r m).fifo f).wpub = ((r n).fifo f).wpub) →
      ∃ m, n ≤ m ∧ ((r m).fifo f).wqb = ((r m).fifo f).wpub)

/-- Derived from 30_encoding.md R125: `SEND_STR` presented on the APP port, where the producer's view has room for it,
appends the bytes before the first NUL to TXF, without an error. -/
def Obligations.SendStrAppendsText : Prop :=
  ∀ (bs : List Byte) (s : State), s.Inv → s.inReset = false →
    s.txf.wcount + (bs.takeWhile fun b => b != 0).length ≤ s.txf.capacity →
    ∃ t, runEvents (present (sendStr bs)) s = .next t ∧
      t.txf.contents = s.txf.contents ++ bs.takeWhile (fun b => b != 0) ∧ t.errTx = s.errTx ∧
      t.rxf = s.rxf

/-! ### The step -/

/-- A word presented on a port that accepts it is the very next thing the machine runs: `step` is `exec` of the decoded
instruction, on the state with that event drawn and the strobes of the last step down (the last two are the model's
own fields and conventions, notes/assumptions/2.md, 10.md). -/
def Obligations.StepRunsPresentedCommand : Prop :=
  ∀ (w : Cmd) (es : List Event) (s : State), s.inReset = false →
    (s.pending = .appCmd w :: es →
      step s = exec (decode .app w) { s with pending := es, strobes := Strobes.none }) ∧
    (s.serMode = .external → s.pending = .serCmd w :: es →
      step s = exec (decode .ser w) { s with pending := es, strobes := Strobes.none })

/-- Derived from 60_exceptions.md R300 and 70_reset_and_hazards.md R351: every command completes, and every step has a
next state but a change of the reset inputs that asserts one of them alone on a running block. -/
def Obligations.EveryStepCompletes : Prop :=
  (∀ (i : Instr) (s : State), ∃ t, exec i s = .next t) ∧
  (∀ s : State, (∃ t, step s = .next t) ∨
    (step s = .refused .partialReset ∧ s.inReset = false ∧
      ∃ a b, a ≠ b ∧ s.nextEvent = .resetPins a b))

/-! ### Invariants over positions and bytes -/

/-- Derived from 10_state.md R49, which the spec marks as its own inference: every item in positions counted from reset
without a modulus, so that item 2 holds without a condition (the model's reading, notes/assumptions/14.md). It holds after reset with the empty history; every step keeps it, with the history that goes on by that step; a reset
starts it again. In the modular order of R15, the clause of item 2 on `fl_mark` holds wherever the producer's view
has not passed the mark, and so while a flush is outstanding. -/
def Obligations.StepKeepsHistory : Prop :=
  (∀ (c : Config) (f : FifoId), ((State.ofConfig c).fifo f).Follows History.empty) ∧
  (∀ (f : FifoId) (s t : State) (h : History), s.Inv → (s.fifo f).Follows h → step s = .next t →
    (isResetEvent s.nextEvent = false →
      (t.fifo f).Follows (h.after (s.fifo f) (t.fifo f) (acceptedBy f s.nextEvent s))) ∧
    (isResetEvent s.nextEvent = true → t.fifo f = s.fifo f ∨ (t.fifo f).Follows History.empty)) ∧
  (∀ (f : Fifo) (h : History), f.Follows h →
    (f.flushOutstanding = true → h.rqb ≤ h.mark) ∧ (h.rqb ≤ h.mark → f.MarkInOrder))

/-- Derived from 20_memory.md R85 (the spec's own inference) and 42_cdc_steps.md R254, R255, R257: in every step but a reset, what was in a FIFO
and what the step puts in is, in order, what it takes out, what a flush discards, and what is then in it; and a
discarded byte lies before the mark that was captured. -/
def Obligations.EachStepAccountsForEveryByte : Prop :=
  ∀ (f : FifoId) (s t : State), s.Inv → isResetEvent s.nextEvent = false → step s = .next t →
    (s.fifo f).contents ++ acceptedBy f s.nextEvent s =
      takenBy f s.nextEvent s ++ discardedBy f s.nextEvent s ++ (t.fifo f).contents ∧
    (discardedBy f s.nextEvent s).length ≤ dist (s.fifo f).aw (t.fifo f).target (s.fifo f).rhead ∧
    (discardedBy f s.nextEvent s ≠ [] →
      capturesFlush f s.nextEvent s = true ∨
      ((s.fifo f).drain = true ∧ ∃ v, s.nextEvent = .internal (.syncW2R f v)))

end
end

