-- ==== Sys2Proof/Laws/Pointers.lean ====
section
/-! SUPPORT. Pointer arithmetic in the form that linear arithmetic can use. -/

namespace Sys2Proof.Machine

theorem ptrModulus_eq (aw : Nat) : ptrModulus aw = 2 * slotCount aw := by
  simp only [ptrModulus, slotCount]
  omega

theorem slotCount_pos (aw : Nat) : 0 < slotCount aw := Nat.two_pow_pos aw

theorem ptrModulus_pos (aw : Nat) : 0 < ptrModulus aw := Nat.two_pow_pos (aw + 1)

/-- A pointer of at most sixteen bits fits its carrier. -/
theorem ptrModulus_le (aw : Fin 16) : ptrModulus aw ≤ 2 ^ 16 :=
  Nat.pow_le_pow_right (by decide) (by have := aw.isLt; omega)

theorem dist_lt (aw : Nat) (a b : Ptr) : dist aw a b < ptrModulus aw := Nat.mod_lt _ (ptrModulus_pos aw)

theorem slotOf_lt (aw : Nat) (p : Ptr) : slotOf aw p < slotCount aw := Nat.mod_lt _ (slotCount_pos aw)

theorem inRange_iff {aw : Nat} {p : Ptr} : inRange aw p = true ↔ p.toNat < ptrModulus aw := by simp [inRange]

/-- The distance of two pointer values without a modulus. -/
theorem dist_of_inRange {aw : Nat} {a b : Ptr} (ha : a.toNat < ptrModulus aw) (hb : b.toNat < ptrModulus aw) :
    dist aw a b = if b.toNat ≤ a.toNat then a.toNat - b.toNat else a.toNat + ptrModulus aw - b.toNat := by
  rw [dist, Nat.mod_eq_of_lt hb]
  split
  · have e : a.toNat + (ptrModulus aw - b.toNat) = a.toNat - b.toNat + ptrModulus aw := by omega
    rw [e, Nat.add_mod_right, Nat.mod_eq_of_lt (by omega)]
  · rw [Nat.mod_eq_of_lt (by omega)]
    omega

/-- The successor of a pointer value without a modulus. -/
theorem ptrSucc_toNat {aw : Fin 16} {p : Ptr} (hp : p.toNat < ptrModulus aw) :
    (ptrSucc aw p).toNat = if p.toNat + 1 = ptrModulus aw then 0 else p.toNat + 1 := by
  have hM := ptrModulus_le aw
  rw [ptrSucc, BitVec.toNat_ofNat]
  split
  · rename_i h
    rw [h, Nat.mod_self, Nat.zero_mod]
  · have h : p.toNat + 1 < ptrModulus aw := by omega
    rw [Nat.mod_eq_of_lt h, Nat.mod_eq_of_lt (Nat.lt_of_lt_of_le h hM)]

/-- An increment keeps a pointer of `PW_f` bits. -/
theorem inRange_ptrSucc (aw : Fin 16) (p : Ptr) : inRange aw (ptrSucc aw p) = true := by
  have hM := ptrModulus_le aw
  have h := Nat.mod_lt (p.toNat + 1) (ptrModulus_pos aw)
  rw [inRange_iff, ptrSucc, BitVec.toNat_ofNat, Nat.mod_eq_of_lt (Nat.lt_of_lt_of_le h hM)]
  exact h

/-- An admitted draw is a pointer value. -/
theorem drawAdmitted_spec {aw v : Nat} {view pub : Ptr} (h : drawAdmitted aw v view pub = true) :
    v < ptrModulus aw ∧ 1 ≤ dist aw (BitVec.ofNat 16 v) view ∧
      dist aw (BitVec.ofNat 16 v) view ≤ dist aw pub view := by
  simpa [drawAdmitted, and_assoc] using h

end Sys2Proof.Machine
end

