-- ==== Sys2Proof/Laws/State.lean ====
section
/-! SUPPORT. One lemma per field per update of State and of Fifo, each true by unfolding that update once. -/

namespace Sys2Proof.Machine

/-! `State.rspA` -/

@[simp] theorem State.rspA_txf (x : State) (v : Count) (f0 f1 ill : Bool) : (x.rspA v f0 f1 ill).txf = x.txf := rfl
@[simp] theorem State.rspA_rxf (x : State) (v : Count) (f0 f1 ill : Bool) : (x.rspA v f0 f1 ill).rxf = x.rxf := rfl
@[simp] theorem State.rspA_armed (x : State) (v : Count) (f0 f1 ill : Bool) : (x.rspA v f0 f1 ill).armed = x.armed := rfl
@[simp] theorem State.rspA_errTx (x : State) (v : Count) (f0 f1 ill : Bool) : (x.rspA v f0 f1 ill).errTx = x.errTx := rfl
@[simp] theorem State.rspA_errRx (x : State) (v : Count) (f0 f1 ill : Bool) : (x.rspA v f0 f1 ill).errRx = x.errRx := rfl
@[simp] theorem State.rspA_errRxQ (x : State) (v : Count) (f0 f1 ill : Bool) : (x.rspA v f0 f1 ill).errRxQ = x.errRxQ := rfl
@[simp] theorem State.rspA_ecReq (x : State) (v : Count) (f0 f1 ill : Bool) : (x.rspA v f0 f1 ill).ecReq = x.ecReq := rfl
@[simp] theorem State.rspA_ecPend (x : State) (v : Count) (f0 f1 ill : Bool) : (x.rspA v f0 f1 ill).ecPend = x.ecPend := rfl
@[simp] theorem State.rspA_ecReqQ (x : State) (v : Count) (f0 f1 ill : Bool) : (x.rspA v f0 f1 ill).ecReqQ = x.ecReqQ := rfl
@[simp] theorem State.rspA_ecAck (x : State) (v : Count) (f0 f1 ill : Bool) : (x.rspA v f0 f1 ill).ecAck = x.ecAck := rfl
@[simp] theorem State.rspA_ecAckQ (x : State) (v : Count) (f0 f1 ill : Bool) : (x.rspA v f0 f1 ill).ecAckQ = x.ecAckQ := rfl
@[simp] theorem State.rspA_aRsp (x : State) (v : Count) (f0 f1 ill : Bool) : (x.rspA v f0 f1 ill).aRsp = { val := v, f0 := f0, f1 := f1, ill := ill } := rfl
@[simp] theorem State.rspA_aRspValid (x : State) (v : Count) (f0 f1 ill : Bool) : (x.rspA v f0 f1 ill).aRspValid = true := rfl
@[simp] theorem State.rspA_sRsp (x : State) (v : Count) (f0 f1 ill : Bool) : (x.rspA v f0 f1 ill).sRsp = x.sRsp := rfl
@[simp] theorem State.rspA_sRspValid (x : State) (v : Count) (f0 f1 ill : Bool) : (x.rspA v f0 f1 ill).sRspValid = x.sRspValid := rfl
@[simp] theorem State.rspA_strobes (x : State) (v : Count) (f0 f1 ill : Bool) : (x.rspA v f0 f1 ill).strobes = x.strobes := rfl
@[simp] theorem State.rspA_periph (x : State) (v : Count) (f0 f1 ill : Bool) : (x.rspA v f0 f1 ill).periph = x.periph := rfl
@[simp] theorem State.rspA_rstAN (x : State) (v : Count) (f0 f1 ill : Bool) : (x.rspA v f0 f1 ill).rstAN = x.rstAN := rfl
@[simp] theorem State.rspA_rstSN (x : State) (v : Count) (f0 f1 ill : Bool) : (x.rspA v f0 f1 ill).rstSN = x.rstSN := rfl
@[simp] theorem State.rspA_serMode (x : State) (v : Count) (f0 f1 ill : Bool) : (x.rspA v f0 f1 ill).serMode = x.serMode := rfl
@[simp] theorem State.rspA_ovrPolicy (x : State) (v : Count) (f0 f1 ill : Bool) : (x.rspA v f0 f1 ill).ovrPolicy = x.ovrPolicy := rfl
@[simp] theorem State.rspA_syncStages (x : State) (v : Count) (f0 f1 ill : Bool) : (x.rspA v f0 f1 ill).syncStages = x.syncStages := rfl
@[simp] theorem State.rspA_pending (x : State) (v : Count) (f0 f1 ill : Bool) : (x.rspA v f0 f1 ill).pending = x.pending := rfl
@[simp] theorem State.rspA_drawn (x : State) (v : Count) (f0 f1 ill : Bool) : (x.rspA v f0 f1 ill).drawn = x.drawn := rfl

/-! `State.rspS` -/

@[simp] theorem State.rspS_txf (x : State) (v : Count) (f0 f1 ill : Bool) : (x.rspS v f0 f1 ill).txf = x.txf := rfl
@[simp] theorem State.rspS_rxf (x : State) (v : Count) (f0 f1 ill : Bool) : (x.rspS v f0 f1 ill).rxf = x.rxf := rfl
@[simp] theorem State.rspS_armed (x : State) (v : Count) (f0 f1 ill : Bool) : (x.rspS v f0 f1 ill).armed = x.armed := rfl
@[simp] theorem State.rspS_errTx (x : State) (v : Count) (f0 f1 ill : Bool) : (x.rspS v f0 f1 ill).errTx = x.errTx := rfl
@[simp] theorem State.rspS_errRx (x : State) (v : Count) (f0 f1 ill : Bool) : (x.rspS v f0 f1 ill).errRx = x.errRx := rfl
@[simp] theorem State.rspS_errRxQ (x : State) (v : Count) (f0 f1 ill : Bool) : (x.rspS v f0 f1 ill).errRxQ = x.errRxQ := rfl
@[simp] theorem State.rspS_ecReq (x : State) (v : Count) (f0 f1 ill : Bool) : (x.rspS v f0 f1 ill).ecReq = x.ecReq := rfl
@[simp] theorem State.rspS_ecPend (x : State) (v : Count) (f0 f1 ill : Bool) : (x.rspS v f0 f1 ill).ecPend = x.ecPend := rfl
@[simp] theorem State.rspS_ecReqQ (x : State) (v : Count) (f0 f1 ill : Bool) : (x.rspS v f0 f1 ill).ecReqQ = x.ecReqQ := rfl
@[simp] theorem State.rspS_ecAck (x : State) (v : Count) (f0 f1 ill : Bool) : (x.rspS v f0 f1 ill).ecAck = x.ecAck := rfl
@[simp] theorem State.rspS_ecAckQ (x : State) (v : Count) (f0 f1 ill : Bool) : (x.rspS v f0 f1 ill).ecAckQ = x.ecAckQ := rfl
@[simp] theorem State.rspS_aRsp (x : State) (v : Count) (f0 f1 ill : Bool) : (x.rspS v f0 f1 ill).aRsp = x.aRsp := rfl
@[simp] theorem State.rspS_aRspValid (x : State) (v : Count) (f0 f1 ill : Bool) : (x.rspS v f0 f1 ill).aRspValid = x.aRspValid := rfl
@[simp] theorem State.rspS_sRsp (x : State) (v : Count) (f0 f1 ill : Bool) : (x.rspS v f0 f1 ill).sRsp = { val := v, f0 := f0, f1 := f1, ill := ill } := rfl
@[simp] theorem State.rspS_sRspValid (x : State) (v : Count) (f0 f1 ill : Bool) : (x.rspS v f0 f1 ill).sRspValid = true := rfl
@[simp] theorem State.rspS_strobes (x : State) (v : Count) (f0 f1 ill : Bool) : (x.rspS v f0 f1 ill).strobes = x.strobes := rfl
@[simp] theorem State.rspS_periph (x : State) (v : Count) (f0 f1 ill : Bool) : (x.rspS v f0 f1 ill).periph = x.periph := rfl
@[simp] theorem State.rspS_rstAN (x : State) (v : Count) (f0 f1 ill : Bool) : (x.rspS v f0 f1 ill).rstAN = x.rstAN := rfl
@[simp] theorem State.rspS_rstSN (x : State) (v : Count) (f0 f1 ill : Bool) : (x.rspS v f0 f1 ill).rstSN = x.rstSN := rfl
@[simp] theorem State.rspS_serMode (x : State) (v : Count) (f0 f1 ill : Bool) : (x.rspS v f0 f1 ill).serMode = x.serMode := rfl
@[simp] theorem State.rspS_ovrPolicy (x : State) (v : Count) (f0 f1 ill : Bool) : (x.rspS v f0 f1 ill).ovrPolicy = x.ovrPolicy := rfl
@[simp] theorem State.rspS_syncStages (x : State) (v : Count) (f0 f1 ill : Bool) : (x.rspS v f0 f1 ill).syncStages = x.syncStages := rfl
@[simp] theorem State.rspS_pending (x : State) (v : Count) (f0 f1 ill : Bool) : (x.rspS v f0 f1 ill).pending = x.pending := rfl
@[simp] theorem State.rspS_drawn (x : State) (v : Count) (f0 f1 ill : Bool) : (x.rspS v f0 f1 ill).drawn = x.drawn := rfl

/-! `State.writeData` -/

@[simp] theorem State.writeData_txf (x : State) (b : Byte) : (x.writeData b).txf = x.txf := rfl
@[simp] theorem State.writeData_rxf (x : State) (b : Byte) : (x.writeData b).rxf = x.rxf := rfl
@[simp] theorem State.writeData_armed (x : State) (b : Byte) : (x.writeData b).armed = x.armed := rfl
@[simp] theorem State.writeData_errTx (x : State) (b : Byte) : (x.writeData b).errTx = x.errTx := rfl
@[simp] theorem State.writeData_errRx (x : State) (b : Byte) : (x.writeData b).errRx = x.errRx := rfl
@[simp] theorem State.writeData_errRxQ (x : State) (b : Byte) : (x.writeData b).errRxQ = x.errRxQ := rfl
@[simp] theorem State.writeData_ecReq (x : State) (b : Byte) : (x.writeData b).ecReq = x.ecReq := rfl
@[simp] theorem State.writeData_ecPend (x : State) (b : Byte) : (x.writeData b).ecPend = x.ecPend := rfl
@[simp] theorem State.writeData_ecReqQ (x : State) (b : Byte) : (x.writeData b).ecReqQ = x.ecReqQ := rfl
@[simp] theorem State.writeData_ecAck (x : State) (b : Byte) : (x.writeData b).ecAck = x.ecAck := rfl
@[simp] theorem State.writeData_ecAckQ (x : State) (b : Byte) : (x.writeData b).ecAckQ = x.ecAckQ := rfl
@[simp] theorem State.writeData_aRsp (x : State) (b : Byte) : (x.writeData b).aRsp = x.aRsp := rfl
@[simp] theorem State.writeData_aRspValid (x : State) (b : Byte) : (x.writeData b).aRspValid = x.aRspValid := rfl
@[simp] theorem State.writeData_sRsp (x : State) (b : Byte) : (x.writeData b).sRsp = x.sRsp := rfl
@[simp] theorem State.writeData_sRspValid (x : State) (b : Byte) : (x.writeData b).sRspValid = x.sRspValid := rfl
@[simp] theorem State.writeData_strobes (x : State) (b : Byte) : (x.writeData b).strobes = { x.strobes with pWr := some b } := rfl
@[simp] theorem State.writeData_periph (x : State) (b : Byte) : (x.writeData b).periph = x.periph.writeData b := rfl
@[simp] theorem State.writeData_rstAN (x : State) (b : Byte) : (x.writeData b).rstAN = x.rstAN := rfl
@[simp] theorem State.writeData_rstSN (x : State) (b : Byte) : (x.writeData b).rstSN = x.rstSN := rfl
@[simp] theorem State.writeData_serMode (x : State) (b : Byte) : (x.writeData b).serMode = x.serMode := rfl
@[simp] theorem State.writeData_ovrPolicy (x : State) (b : Byte) : (x.writeData b).ovrPolicy = x.ovrPolicy := rfl
@[simp] theorem State.writeData_syncStages (x : State) (b : Byte) : (x.writeData b).syncStages = x.syncStages := rfl
@[simp] theorem State.writeData_pending (x : State) (b : Byte) : (x.writeData b).pending = x.pending := rfl
@[simp] theorem State.writeData_drawn (x : State) (b : Byte) : (x.writeData b).drawn = x.drawn := rfl

/-! `State.clearRxne` -/

@[simp] theorem State.clearRxne_txf (x : State) : (x.clearRxne).txf = x.txf := rfl
@[simp] theorem State.clearRxne_rxf (x : State) : (x.clearRxne).rxf = x.rxf := rfl
@[simp] theorem State.clearRxne_armed (x : State) : (x.clearRxne).armed = x.armed := rfl
@[simp] theorem State.clearRxne_errTx (x : State) : (x.clearRxne).errTx = x.errTx := rfl
@[simp] theorem State.clearRxne_errRx (x : State) : (x.clearRxne).errRx = x.errRx := rfl
@[simp] theorem State.clearRxne_errRxQ (x : State) : (x.clearRxne).errRxQ = x.errRxQ := rfl
@[simp] theorem State.clearRxne_ecReq (x : State) : (x.clearRxne).ecReq = x.ecReq := rfl
@[simp] theorem State.clearRxne_ecPend (x : State) : (x.clearRxne).ecPend = x.ecPend := rfl
@[simp] theorem State.clearRxne_ecReqQ (x : State) : (x.clearRxne).ecReqQ = x.ecReqQ := rfl
@[simp] theorem State.clearRxne_ecAck (x : State) : (x.clearRxne).ecAck = x.ecAck := rfl
@[simp] theorem State.clearRxne_ecAckQ (x : State) : (x.clearRxne).ecAckQ = x.ecAckQ := rfl
@[simp] theorem State.clearRxne_aRsp (x : State) : (x.clearRxne).aRsp = x.aRsp := rfl
@[simp] theorem State.clearRxne_aRspValid (x : State) : (x.clearRxne).aRspValid = x.aRspValid := rfl
@[simp] theorem State.clearRxne_sRsp (x : State) : (x.clearRxne).sRsp = x.sRsp := rfl
@[simp] theorem State.clearRxne_sRspValid (x : State) : (x.clearRxne).sRspValid = x.sRspValid := rfl
@[simp] theorem State.clearRxne_strobes (x : State) : (x.clearRxne).strobes = { x.strobes with pClrRxne := true } := rfl
@[simp] theorem State.clearRxne_periph (x : State) : (x.clearRxne).periph = x.periph.clearRxne := rfl
@[simp] theorem State.clearRxne_rstAN (x : State) : (x.clearRxne).rstAN = x.rstAN := rfl
@[simp] theorem State.clearRxne_rstSN (x : State) : (x.clearRxne).rstSN = x.rstSN := rfl
@[simp] theorem State.clearRxne_serMode (x : State) : (x.clearRxne).serMode = x.serMode := rfl
@[simp] theorem State.clearRxne_ovrPolicy (x : State) : (x.clearRxne).ovrPolicy = x.ovrPolicy := rfl
@[simp] theorem State.clearRxne_syncStages (x : State) : (x.clearRxne).syncStages = x.syncStages := rfl
@[simp] theorem State.clearRxne_pending (x : State) : (x.clearRxne).pending = x.pending := rfl
@[simp] theorem State.clearRxne_drawn (x : State) : (x.clearRxne).drawn = x.drawn := rfl

/-! `State.strobesDown` -/

@[simp] theorem State.strobesDown_txf (x : State) : (x.strobesDown).txf = x.txf := rfl
@[simp] theorem State.strobesDown_rxf (x : State) : (x.strobesDown).rxf = x.rxf := rfl
@[simp] theorem State.strobesDown_armed (x : State) : (x.strobesDown).armed = x.armed := rfl
@[simp] theorem State.strobesDown_errTx (x : State) : (x.strobesDown).errTx = x.errTx := rfl
@[simp] theorem State.strobesDown_errRx (x : State) : (x.strobesDown).errRx = x.errRx := rfl
@[simp] theorem State.strobesDown_errRxQ (x : State) : (x.strobesDown).errRxQ = x.errRxQ := rfl
@[simp] theorem State.strobesDown_ecReq (x : State) : (x.strobesDown).ecReq = x.ecReq := rfl
@[simp] theorem State.strobesDown_ecPend (x : State) : (x.strobesDown).ecPend = x.ecPend := rfl
@[simp] theorem State.strobesDown_ecReqQ (x : State) : (x.strobesDown).ecReqQ = x.ecReqQ := rfl
@[simp] theorem State.strobesDown_ecAck (x : State) : (x.strobesDown).ecAck = x.ecAck := rfl
@[simp] theorem State.strobesDown_ecAckQ (x : State) : (x.strobesDown).ecAckQ = x.ecAckQ := rfl
@[simp] theorem State.strobesDown_aRsp (x : State) : (x.strobesDown).aRsp = x.aRsp := rfl
@[simp] theorem State.strobesDown_aRspValid (x : State) : (x.strobesDown).aRspValid = x.aRspValid := rfl
@[simp] theorem State.strobesDown_sRsp (x : State) : (x.strobesDown).sRsp = x.sRsp := rfl
@[simp] theorem State.strobesDown_sRspValid (x : State) : (x.strobesDown).sRspValid = x.sRspValid := rfl
@[simp] theorem State.strobesDown_strobes (x : State) : (x.strobesDown).strobes = Strobes.none := rfl
@[simp] theorem State.strobesDown_periph (x : State) : (x.strobesDown).periph = x.periph := rfl
@[simp] theorem State.strobesDown_rstAN (x : State) : (x.strobesDown).rstAN = x.rstAN := rfl
@[simp] theorem State.strobesDown_rstSN (x : State) : (x.strobesDown).rstSN = x.rstSN := rfl
@[simp] theorem State.strobesDown_serMode (x : State) : (x.strobesDown).serMode = x.serMode := rfl
@[simp] theorem State.strobesDown_ovrPolicy (x : State) : (x.strobesDown).ovrPolicy = x.ovrPolicy := rfl
@[simp] theorem State.strobesDown_syncStages (x : State) : (x.strobesDown).syncStages = x.syncStages := rfl
@[simp] theorem State.strobesDown_pending (x : State) : (x.strobesDown).pending = x.pending := rfl
@[simp] theorem State.strobesDown_drawn (x : State) : (x.strobesDown).drawn = x.drawn := rfl

/-! `State.periphTxc` -/

@[simp] theorem State.periphTxc_txf (x : State) : (x.periphTxc).txf = x.txf := rfl
@[simp] theorem State.periphTxc_rxf (x : State) : (x.periphTxc).rxf = x.rxf := rfl
@[simp] theorem State.periphTxc_armed (x : State) : (x.periphTxc).armed = x.armed := rfl
@[simp] theorem State.periphTxc_errTx (x : State) : (x.periphTxc).errTx = x.errTx := rfl
@[simp] theorem State.periphTxc_errRx (x : State) : (x.periphTxc).errRx = x.errRx := rfl
@[simp] theorem State.periphTxc_errRxQ (x : State) : (x.periphTxc).errRxQ = x.errRxQ := rfl
@[simp] theorem State.periphTxc_ecReq (x : State) : (x.periphTxc).ecReq = x.ecReq := rfl
@[simp] theorem State.periphTxc_ecPend (x : State) : (x.periphTxc).ecPend = x.ecPend := rfl
@[simp] theorem State.periphTxc_ecReqQ (x : State) : (x.periphTxc).ecReqQ = x.ecReqQ := rfl
@[simp] theorem State.periphTxc_ecAck (x : State) : (x.periphTxc).ecAck = x.ecAck := rfl
@[simp] theorem State.periphTxc_ecAckQ (x : State) : (x.periphTxc).ecAckQ = x.ecAckQ := rfl
@[simp] theorem State.periphTxc_aRsp (x : State) : (x.periphTxc).aRsp = x.aRsp := rfl
@[simp] theorem State.periphTxc_aRspValid (x : State) : (x.periphTxc).aRspValid = x.aRspValid := rfl
@[simp] theorem State.periphTxc_sRsp (x : State) : (x.periphTxc).sRsp = x.sRsp := rfl
@[simp] theorem State.periphTxc_sRspValid (x : State) : (x.periphTxc).sRspValid = x.sRspValid := rfl
@[simp] theorem State.periphTxc_strobes (x : State) : (x.periphTxc).strobes = x.strobes := rfl
@[simp] theorem State.periphTxc_periph (x : State) : (x.periphTxc).periph = x.periph.txc := rfl
@[simp] theorem State.periphTxc_rstAN (x : State) : (x.periphTxc).rstAN = x.rstAN := rfl
@[simp] theorem State.periphTxc_rstSN (x : State) : (x.periphTxc).rstSN = x.rstSN := rfl
@[simp] theorem State.periphTxc_serMode (x : State) : (x.periphTxc).serMode = x.serMode := rfl
@[simp] theorem State.periphTxc_ovrPolicy (x : State) : (x.periphTxc).ovrPolicy = x.ovrPolicy := rfl
@[simp] theorem State.periphTxc_syncStages (x : State) : (x.periphTxc).syncStages = x.syncStages := rfl
@[simp] theorem State.periphTxc_pending (x : State) : (x.periphTxc).pending = x.pending := rfl
@[simp] theorem State.periphTxc_drawn (x : State) : (x.periphTxc).drawn = x.drawn := rfl

/-! `State.periphRxa` -/

@[simp] theorem State.periphRxa_txf (x : State) (b : Byte) : (x.periphRxa b).txf = x.txf := rfl
@[simp] theorem State.periphRxa_rxf (x : State) (b : Byte) : (x.periphRxa b).rxf = x.rxf := rfl
@[simp] theorem State.periphRxa_armed (x : State) (b : Byte) : (x.periphRxa b).armed = x.armed := rfl
@[simp] theorem State.periphRxa_errTx (x : State) (b : Byte) : (x.periphRxa b).errTx = x.errTx := rfl
@[simp] theorem State.periphRxa_errRx (x : State) (b : Byte) : (x.periphRxa b).errRx = x.errRx := rfl
@[simp] theorem State.periphRxa_errRxQ (x : State) (b : Byte) : (x.periphRxa b).errRxQ = x.errRxQ := rfl
@[simp] theorem State.periphRxa_ecReq (x : State) (b : Byte) : (x.periphRxa b).ecReq = x.ecReq := rfl
@[simp] theorem State.periphRxa_ecPend (x : State) (b : Byte) : (x.periphRxa b).ecPend = x.ecPend := rfl
@[simp] theorem State.periphRxa_ecReqQ (x : State) (b : Byte) : (x.periphRxa b).ecReqQ = x.ecReqQ := rfl
@[simp] theorem State.periphRxa_ecAck (x : State) (b : Byte) : (x.periphRxa b).ecAck = x.ecAck := rfl
@[simp] theorem State.periphRxa_ecAckQ (x : State) (b : Byte) : (x.periphRxa b).ecAckQ = x.ecAckQ := rfl
@[simp] theorem State.periphRxa_aRsp (x : State) (b : Byte) : (x.periphRxa b).aRsp = x.aRsp := rfl
@[simp] theorem State.periphRxa_aRspValid (x : State) (b : Byte) : (x.periphRxa b).aRspValid = x.aRspValid := rfl
@[simp] theorem State.periphRxa_sRsp (x : State) (b : Byte) : (x.periphRxa b).sRsp = x.sRsp := rfl
@[simp] theorem State.periphRxa_sRspValid (x : State) (b : Byte) : (x.periphRxa b).sRspValid = x.sRspValid := rfl
@[simp] theorem State.periphRxa_strobes (x : State) (b : Byte) : (x.periphRxa b).strobes = x.strobes := rfl
@[simp] theorem State.periphRxa_periph (x : State) (b : Byte) : (x.periphRxa b).periph = x.periph.rxa x.ovrPolicy b := rfl
@[simp] theorem State.periphRxa_rstAN (x : State) (b : Byte) : (x.periphRxa b).rstAN = x.rstAN := rfl
@[simp] theorem State.periphRxa_rstSN (x : State) (b : Byte) : (x.periphRxa b).rstSN = x.rstSN := rfl
@[simp] theorem State.periphRxa_serMode (x : State) (b : Byte) : (x.periphRxa b).serMode = x.serMode := rfl
@[simp] theorem State.periphRxa_ovrPolicy (x : State) (b : Byte) : (x.periphRxa b).ovrPolicy = x.ovrPolicy := rfl
@[simp] theorem State.periphRxa_syncStages (x : State) (b : Byte) : (x.periphRxa b).syncStages = x.syncStages := rfl
@[simp] theorem State.periphRxa_pending (x : State) (b : Byte) : (x.periphRxa b).pending = x.pending := rfl
@[simp] theorem State.periphRxa_drawn (x : State) (b : Byte) : (x.periphRxa b).drawn = x.drawn := rfl

/-! `State.errRxSync` -/

@[simp] theorem State.errRxSync_txf (x : State) : (x.errRxSync).txf = x.txf := rfl
@[simp] theorem State.errRxSync_rxf (x : State) : (x.errRxSync).rxf = x.rxf := rfl
@[simp] theorem State.errRxSync_armed (x : State) : (x.errRxSync).armed = x.armed := rfl
@[simp] theorem State.errRxSync_errTx (x : State) : (x.errRxSync).errTx = x.errTx := rfl
@[simp] theorem State.errRxSync_errRx (x : State) : (x.errRxSync).errRx = x.errRx := rfl
@[simp] theorem State.errRxSync_errRxQ (x : State) : (x.errRxSync).errRxQ = x.errRx := rfl
@[simp] theorem State.errRxSync_ecReq (x : State) : (x.errRxSync).ecReq = x.ecReq := rfl
@[simp] theorem State.errRxSync_ecPend (x : State) : (x.errRxSync).ecPend = x.ecPend := rfl
@[simp] theorem State.errRxSync_ecReqQ (x : State) : (x.errRxSync).ecReqQ = x.ecReqQ := rfl
@[simp] theorem State.errRxSync_ecAck (x : State) : (x.errRxSync).ecAck = x.ecAck := rfl
@[simp] theorem State.errRxSync_ecAckQ (x : State) : (x.errRxSync).ecAckQ = x.ecAckQ := rfl
@[simp] theorem State.errRxSync_aRsp (x : State) : (x.errRxSync).aRsp = x.aRsp := rfl
@[simp] theorem State.errRxSync_aRspValid (x : State) : (x.errRxSync).aRspValid = x.aRspValid := rfl
@[simp] theorem State.errRxSync_sRsp (x : State) : (x.errRxSync).sRsp = x.sRsp := rfl
@[simp] theorem State.errRxSync_sRspValid (x : State) : (x.errRxSync).sRspValid = x.sRspValid := rfl
@[simp] theorem State.errRxSync_strobes (x : State) : (x.errRxSync).strobes = x.strobes := rfl
@[simp] theorem State.errRxSync_periph (x : State) : (x.errRxSync).periph = x.periph := rfl
@[simp] theorem State.errRxSync_rstAN (x : State) : (x.errRxSync).rstAN = x.rstAN := rfl
@[simp] theorem State.errRxSync_rstSN (x : State) : (x.errRxSync).rstSN = x.rstSN := rfl
@[simp] theorem State.errRxSync_serMode (x : State) : (x.errRxSync).serMode = x.serMode := rfl
@[simp] theorem State.errRxSync_ovrPolicy (x : State) : (x.errRxSync).ovrPolicy = x.ovrPolicy := rfl
@[simp] theorem State.errRxSync_syncStages (x : State) : (x.errRxSync).syncStages = x.syncStages := rfl
@[simp] theorem State.errRxSync_pending (x : State) : (x.errRxSync).pending = x.pending := rfl
@[simp] theorem State.errRxSync_drawn (x : State) : (x.errRxSync).drawn = x.drawn := rfl

/-! `State.ecReqSync` -/

@[simp] theorem State.ecReqSync_txf (x : State) : (x.ecReqSync).txf = x.txf := rfl
@[simp] theorem State.ecReqSync_rxf (x : State) : (x.ecReqSync).rxf = x.rxf := rfl
@[simp] theorem State.ecReqSync_armed (x : State) : (x.ecReqSync).armed = x.armed := rfl
@[simp] theorem State.ecReqSync_errTx (x : State) : (x.ecReqSync).errTx = x.errTx := rfl
@[simp] theorem State.ecReqSync_errRx (x : State) : (x.ecReqSync).errRx = false := rfl
@[simp] theorem State.ecReqSync_errRxQ (x : State) : (x.ecReqSync).errRxQ = x.errRxQ := rfl
@[simp] theorem State.ecReqSync_ecReq (x : State) : (x.ecReqSync).ecReq = x.ecReq := rfl
@[simp] theorem State.ecReqSync_ecPend (x : State) : (x.ecReqSync).ecPend = x.ecPend := rfl
@[simp] theorem State.ecReqSync_ecReqQ (x : State) : (x.ecReqSync).ecReqQ = x.ecReq := rfl
@[simp] theorem State.ecReqSync_ecAck (x : State) : (x.ecReqSync).ecAck = x.ecReq := rfl
@[simp] theorem State.ecReqSync_ecAckQ (x : State) : (x.ecReqSync).ecAckQ = x.ecAckQ := rfl
@[simp] theorem State.ecReqSync_aRsp (x : State) : (x.ecReqSync).aRsp = x.aRsp := rfl
@[simp] theorem State.ecReqSync_aRspValid (x : State) : (x.ecReqSync).aRspValid = x.aRspValid := rfl
@[simp] theorem State.ecReqSync_sRsp (x : State) : (x.ecReqSync).sRsp = x.sRsp := rfl
@[simp] theorem State.ecReqSync_sRspValid (x : State) : (x.ecReqSync).sRspValid = x.sRspValid := rfl
@[simp] theorem State.ecReqSync_strobes (x : State) : (x.ecReqSync).strobes = x.strobes := rfl
@[simp] theorem State.ecReqSync_periph (x : State) : (x.ecReqSync).periph = x.periph := rfl
@[simp] theorem State.ecReqSync_rstAN (x : State) : (x.ecReqSync).rstAN = x.rstAN := rfl
@[simp] theorem State.ecReqSync_rstSN (x : State) : (x.ecReqSync).rstSN = x.rstSN := rfl
@[simp] theorem State.ecReqSync_serMode (x : State) : (x.ecReqSync).serMode = x.serMode := rfl
@[simp] theorem State.ecReqSync_ovrPolicy (x : State) : (x.ecReqSync).ovrPolicy = x.ovrPolicy := rfl
@[simp] theorem State.ecReqSync_syncStages (x : State) : (x.ecReqSync).syncStages = x.syncStages := rfl
@[simp] theorem State.ecReqSync_pending (x : State) : (x.ecReqSync).pending = x.pending := rfl
@[simp] theorem State.ecReqSync_drawn (x : State) : (x.ecReqSync).drawn = x.drawn := rfl

/-! `Fifo.push` -/

@[simp] theorem Fifo.push_aw (x : Fifo) (b : Byte) : (x.push b).aw = x.aw := rfl
@[simp] theorem Fifo.push_wptr (x : Fifo) (b : Byte) : (x.push b).wptr = ptrSucc x.aw x.wptr := rfl
@[simp] theorem Fifo.push_wpub (x : Fifo) (b : Byte) : (x.push b).wpub = x.wpub := rfl
@[simp] theorem Fifo.push_rq (x : Fifo) (b : Byte) : (x.push b).rq = x.rq := rfl
@[simp] theorem Fifo.push_flReq (x : Fifo) (b : Byte) : (x.push b).flReq = x.flReq := rfl
@[simp] theorem Fifo.push_flMark (x : Fifo) (b : Byte) : (x.push b).flMark = x.flMark := rfl
@[simp] theorem Fifo.push_flPend (x : Fifo) (b : Byte) : (x.push b).flPend = x.flPend := rfl
@[simp] theorem Fifo.push_flNext (x : Fifo) (b : Byte) : (x.push b).flNext = x.flNext := rfl
@[simp] theorem Fifo.push_fa (x : Fifo) (b : Byte) : (x.push b).fa = x.fa := rfl
@[simp] theorem Fifo.push_rhead (x : Fifo) (b : Byte) : (x.push b).rhead = x.rhead := rfl
@[simp] theorem Fifo.push_rpub (x : Fifo) (b : Byte) : (x.push b).rpub = x.rpub := rfl
@[simp] theorem Fifo.push_wq (x : Fifo) (b : Byte) : (x.push b).wq = x.wq := rfl
@[simp] theorem Fifo.push_fr (x : Fifo) (b : Byte) : (x.push b).fr = x.fr := rfl
@[simp] theorem Fifo.push_flAck (x : Fifo) (b : Byte) : (x.push b).flAck = x.flAck := rfl
@[simp] theorem Fifo.push_drain (x : Fifo) (b : Byte) : (x.push b).drain = x.drain := rfl
@[simp] theorem Fifo.push_target (x : Fifo) (b : Byte) : (x.push b).target = x.target := rfl
@[simp] theorem Fifo.push_mem (x : Fifo) (b : Byte) : (x.push b).mem = x.mem.write (slotOf x.aw x.wptr) b := rfl

/-! `Fifo.pop` -/

@[simp] theorem Fifo.pop_aw (x : Fifo) : (x.pop).aw = x.aw := rfl
@[simp] theorem Fifo.pop_wptr (x : Fifo) : (x.pop).wptr = x.wptr := rfl
@[simp] theorem Fifo.pop_wpub (x : Fifo) : (x.pop).wpub = x.wpub := rfl
@[simp] theorem Fifo.pop_rq (x : Fifo) : (x.pop).rq = x.rq := rfl
@[simp] theorem Fifo.pop_flReq (x : Fifo) : (x.pop).flReq = x.flReq := rfl
@[simp] theorem Fifo.pop_flMark (x : Fifo) : (x.pop).flMark = x.flMark := rfl
@[simp] theorem Fifo.pop_flPend (x : Fifo) : (x.pop).flPend = x.flPend := rfl
@[simp] theorem Fifo.pop_flNext (x : Fifo) : (x.pop).flNext = x.flNext := rfl
@[simp] theorem Fifo.pop_fa (x : Fifo) : (x.pop).fa = x.fa := rfl
@[simp] theorem Fifo.pop_rhead (x : Fifo) : (x.pop).rhead = ptrSucc x.aw x.rhead := rfl
@[simp] theorem Fifo.pop_rpub (x : Fifo) : (x.pop).rpub = x.rpub := rfl
@[simp] theorem Fifo.pop_wq (x : Fifo) : (x.pop).wq = x.wq := rfl
@[simp] theorem Fifo.pop_fr (x : Fifo) : (x.pop).fr = x.fr := rfl
@[simp] theorem Fifo.pop_flAck (x : Fifo) : (x.pop).flAck = x.flAck := rfl
@[simp] theorem Fifo.pop_drain (x : Fifo) : (x.pop).drain = x.drain := rfl
@[simp] theorem Fifo.pop_target (x : Fifo) : (x.pop).target = x.target := rfl
@[simp] theorem Fifo.pop_mem (x : Fifo) : (x.pop).mem = x.mem := rfl

/-! `Fifo.wPub` -/

@[simp] theorem Fifo.wPub_aw (x : Fifo) : (x.wPub).aw = x.aw := rfl
@[simp] theorem Fifo.wPub_wptr (x : Fifo) : (x.wPub).wptr = x.wptr := rfl
@[simp] theorem Fifo.wPub_wpub (x : Fifo) : (x.wPub).wpub = ptrSucc x.aw x.wpub := rfl
@[simp] theorem Fifo.wPub_rq (x : Fifo) : (x.wPub).rq = x.rq := rfl
@[simp] theorem Fifo.wPub_flReq (x : Fifo) : (x.wPub).flReq = x.flReq := rfl
@[simp] theorem Fifo.wPub_flMark (x : Fifo) : (x.wPub).flMark = x.flMark := rfl
@[simp] theorem Fifo.wPub_flPend (x : Fifo) : (x.wPub).flPend = x.flPend := rfl
@[simp] theorem Fifo.wPub_flNext (x : Fifo) : (x.wPub).flNext = x.flNext := rfl
@[simp] theorem Fifo.wPub_fa (x : Fifo) : (x.wPub).fa = x.fa := rfl
@[simp] theorem Fifo.wPub_rhead (x : Fifo) : (x.wPub).rhead = x.rhead := rfl
@[simp] theorem Fifo.wPub_rpub (x : Fifo) : (x.wPub).rpub = x.rpub := rfl
@[simp] theorem Fifo.wPub_wq (x : Fifo) : (x.wPub).wq = x.wq := rfl
@[simp] theorem Fifo.wPub_fr (x : Fifo) : (x.wPub).fr = x.fr := rfl
@[simp] theorem Fifo.wPub_flAck (x : Fifo) : (x.wPub).flAck = x.flAck := rfl
@[simp] theorem Fifo.wPub_drain (x : Fifo) : (x.wPub).drain = x.drain := rfl
@[simp] theorem Fifo.wPub_target (x : Fifo) : (x.wPub).target = x.target := rfl
@[simp] theorem Fifo.wPub_mem (x : Fifo) : (x.wPub).mem = x.mem := rfl

/-! `Fifo.rPub` -/

@[simp] theorem Fifo.rPub_aw (x : Fifo) : (x.rPub).aw = x.aw := rfl
@[simp] theorem Fifo.rPub_wptr (x : Fifo) : (x.rPub).wptr = x.wptr := rfl
@[simp] theorem Fifo.rPub_wpub (x : Fifo) : (x.rPub).wpub = x.wpub := rfl
@[simp] theorem Fifo.rPub_rq (x : Fifo) : (x.rPub).rq = x.rq := rfl
@[simp] theorem Fifo.rPub_flReq (x : Fifo) : (x.rPub).flReq = x.flReq := rfl
@[simp] theorem Fifo.rPub_flMark (x : Fifo) : (x.rPub).flMark = x.flMark := rfl
@[simp] theorem Fifo.rPub_flPend (x : Fifo) : (x.rPub).flPend = x.flPend := rfl
@[simp] theorem Fifo.rPub_flNext (x : Fifo) : (x.rPub).flNext = x.flNext := rfl
@[simp] theorem Fifo.rPub_fa (x : Fifo) : (x.rPub).fa = x.fa := rfl
@[simp] theorem Fifo.rPub_rhead (x : Fifo) : (x.rPub).rhead = x.rhead := rfl
@[simp] theorem Fifo.rPub_rpub (x : Fifo) : (x.rPub).rpub = ptrSucc x.aw x.rpub := rfl
@[simp] theorem Fifo.rPub_wq (x : Fifo) : (x.rPub).wq = x.wq := rfl
@[simp] theorem Fifo.rPub_fr (x : Fifo) : (x.rPub).fr = x.fr := rfl
@[simp] theorem Fifo.rPub_flAck (x : Fifo) : (x.rPub).flAck = x.flAck := rfl
@[simp] theorem Fifo.rPub_drain (x : Fifo) : (x.rPub).drain = x.drain := rfl
@[simp] theorem Fifo.rPub_target (x : Fifo) : (x.rPub).target = x.target := rfl
@[simp] theorem Fifo.rPub_mem (x : Fifo) : (x.rPub).mem = x.mem := rfl

/-! `Fifo.syncR2W` -/

@[simp] theorem Fifo.syncR2W_aw (x : Fifo) (v : Nat) : (x.syncR2W v).aw = x.aw := rfl
@[simp] theorem Fifo.syncR2W_wptr (x : Fifo) (v : Nat) : (x.syncR2W v).wptr = x.wptr := rfl
@[simp] theorem Fifo.syncR2W_wpub (x : Fifo) (v : Nat) : (x.syncR2W v).wpub = x.wpub := rfl
@[simp] theorem Fifo.syncR2W_rq (x : Fifo) (v : Nat) : (x.syncR2W v).rq = gray (BitVec.ofNat 16 v) := rfl
@[simp] theorem Fifo.syncR2W_flReq (x : Fifo) (v : Nat) : (x.syncR2W v).flReq = x.flReq := rfl
@[simp] theorem Fifo.syncR2W_flMark (x : Fifo) (v : Nat) : (x.syncR2W v).flMark = x.flMark := rfl
@[simp] theorem Fifo.syncR2W_flPend (x : Fifo) (v : Nat) : (x.syncR2W v).flPend = x.flPend := rfl
@[simp] theorem Fifo.syncR2W_flNext (x : Fifo) (v : Nat) : (x.syncR2W v).flNext = x.flNext := rfl
@[simp] theorem Fifo.syncR2W_fa (x : Fifo) (v : Nat) : (x.syncR2W v).fa = x.fa := rfl
@[simp] theorem Fifo.syncR2W_rhead (x : Fifo) (v : Nat) : (x.syncR2W v).rhead = x.rhead := rfl
@[simp] theorem Fifo.syncR2W_rpub (x : Fifo) (v : Nat) : (x.syncR2W v).rpub = x.rpub := rfl
@[simp] theorem Fifo.syncR2W_wq (x : Fifo) (v : Nat) : (x.syncR2W v).wq = x.wq := rfl
@[simp] theorem Fifo.syncR2W_fr (x : Fifo) (v : Nat) : (x.syncR2W v).fr = x.fr := rfl
@[simp] theorem Fifo.syncR2W_flAck (x : Fifo) (v : Nat) : (x.syncR2W v).flAck = x.flAck := rfl
@[simp] theorem Fifo.syncR2W_drain (x : Fifo) (v : Nat) : (x.syncR2W v).drain = x.drain := rfl
@[simp] theorem Fifo.syncR2W_target (x : Fifo) (v : Nat) : (x.syncR2W v).target = x.target := rfl
@[simp] theorem Fifo.syncR2W_mem (x : Fifo) (v : Nat) : (x.syncR2W v).mem = x.mem := rfl

/-! `State.setFifo` and `State.armIfTx` -/

@[simp] theorem State.setFifo_armed (x : State) (f : FifoId) (y : Fifo) : (x.setFifo f y).armed = x.armed := by cases f <;> rfl
@[simp] theorem State.setFifo_errTx (x : State) (f : FifoId) (y : Fifo) : (x.setFifo f y).errTx = x.errTx := by cases f <;> rfl
@[simp] theorem State.setFifo_errRx (x : State) (f : FifoId) (y : Fifo) : (x.setFifo f y).errRx = x.errRx := by cases f <;> rfl
@[simp] theorem State.setFifo_errRxQ (x : State) (f : FifoId) (y : Fifo) : (x.setFifo f y).errRxQ = x.errRxQ := by cases f <;> rfl
@[simp] theorem State.setFifo_ecReq (x : State) (f : FifoId) (y : Fifo) : (x.setFifo f y).ecReq = x.ecReq := by cases f <;> rfl
@[simp] theorem State.setFifo_ecPend (x : State) (f : FifoId) (y : Fifo) : (x.setFifo f y).ecPend = x.ecPend := by cases f <;> rfl
@[simp] theorem State.setFifo_ecReqQ (x : State) (f : FifoId) (y : Fifo) : (x.setFifo f y).ecReqQ = x.ecReqQ := by cases f <;> rfl
@[simp] theorem State.setFifo_ecAck (x : State) (f : FifoId) (y : Fifo) : (x.setFifo f y).ecAck = x.ecAck := by cases f <;> rfl
@[simp] theorem State.setFifo_ecAckQ (x : State) (f : FifoId) (y : Fifo) : (x.setFifo f y).ecAckQ = x.ecAckQ := by cases f <;> rfl
@[simp] theorem State.setFifo_aRsp (x : State) (f : FifoId) (y : Fifo) : (x.setFifo f y).aRsp = x.aRsp := by cases f <;> rfl
@[simp] theorem State.setFifo_aRspValid (x : State) (f : FifoId) (y : Fifo) : (x.setFifo f y).aRspValid = x.aRspValid := by cases f <;> rfl
@[simp] theorem State.setFifo_sRsp (x : State) (f : FifoId) (y : Fifo) : (x.setFifo f y).sRsp = x.sRsp := by cases f <;> rfl
@[simp] theorem State.setFifo_sRspValid (x : State) (f : FifoId) (y : Fifo) : (x.setFifo f y).sRspValid = x.sRspValid := by cases f <;> rfl
@[simp] theorem State.setFifo_strobes (x : State) (f : FifoId) (y : Fifo) : (x.setFifo f y).strobes = x.strobes := by cases f <;> rfl
@[simp] theorem State.setFifo_periph (x : State) (f : FifoId) (y : Fifo) : (x.setFifo f y).periph = x.periph := by cases f <;> rfl
@[simp] theorem State.setFifo_rstAN (x : State) (f : FifoId) (y : Fifo) : (x.setFifo f y).rstAN = x.rstAN := by cases f <;> rfl
@[simp] theorem State.setFifo_rstSN (x : State) (f : FifoId) (y : Fifo) : (x.setFifo f y).rstSN = x.rstSN := by cases f <;> rfl
@[simp] theorem State.setFifo_serMode (x : State) (f : FifoId) (y : Fifo) : (x.setFifo f y).serMode = x.serMode := by cases f <;> rfl
@[simp] theorem State.setFifo_ovrPolicy (x : State) (f : FifoId) (y : Fifo) : (x.setFifo f y).ovrPolicy = x.ovrPolicy := by cases f <;> rfl
@[simp] theorem State.setFifo_syncStages (x : State) (f : FifoId) (y : Fifo) : (x.setFifo f y).syncStages = x.syncStages := by cases f <;> rfl
@[simp] theorem State.setFifo_pending (x : State) (f : FifoId) (y : Fifo) : (x.setFifo f y).pending = x.pending := by cases f <;> rfl
@[simp] theorem State.setFifo_drawn (x : State) (f : FifoId) (y : Fifo) : (x.setFifo f y).drawn = x.drawn := by cases f <;> rfl
@[simp] theorem State.armIfTx_txf (x : State) (f : FifoId) : (x.armIfTx f).txf = x.txf := by cases f <;> rfl
@[simp] theorem State.armIfTx_rxf (x : State) (f : FifoId) : (x.armIfTx f).rxf = x.rxf := by cases f <;> rfl
@[simp] theorem State.armIfTx_errTx (x : State) (f : FifoId) : (x.armIfTx f).errTx = x.errTx := by cases f <;> rfl
@[simp] theorem State.armIfTx_errRx (x : State) (f : FifoId) : (x.armIfTx f).errRx = x.errRx := by cases f <;> rfl
@[simp] theorem State.armIfTx_errRxQ (x : State) (f : FifoId) : (x.armIfTx f).errRxQ = x.errRxQ := by cases f <;> rfl
@[simp] theorem State.armIfTx_ecReq (x : State) (f : FifoId) : (x.armIfTx f).ecReq = x.ecReq := by cases f <;> rfl
@[simp] theorem State.armIfTx_ecPend (x : State) (f : FifoId) : (x.armIfTx f).ecPend = x.ecPend := by cases f <;> rfl
@[simp] theorem State.armIfTx_ecReqQ (x : State) (f : FifoId) : (x.armIfTx f).ecReqQ = x.ecReqQ := by cases f <;> rfl
@[simp] theorem State.armIfTx_ecAck (x : State) (f : FifoId) : (x.armIfTx f).ecAck = x.ecAck := by cases f <;> rfl
@[simp] theorem State.armIfTx_ecAckQ (x : State) (f : FifoId) : (x.armIfTx f).ecAckQ = x.ecAckQ := by cases f <;> rfl
@[simp] theorem State.armIfTx_aRsp (x : State) (f : FifoId) : (x.armIfTx f).aRsp = x.aRsp := by cases f <;> rfl
@[simp] theorem State.armIfTx_aRspValid (x : State) (f : FifoId) : (x.armIfTx f).aRspValid = x.aRspValid := by cases f <;> rfl
@[simp] theorem State.armIfTx_sRsp (x : State) (f : FifoId) : (x.armIfTx f).sRsp = x.sRsp := by cases f <;> rfl
@[simp] theorem State.armIfTx_sRspValid (x : State) (f : FifoId) : (x.armIfTx f).sRspValid = x.sRspValid := by cases f <;> rfl
@[simp] theorem State.armIfTx_strobes (x : State) (f : FifoId) : (x.armIfTx f).strobes = x.strobes := by cases f <;> rfl
@[simp] theorem State.armIfTx_periph (x : State) (f : FifoId) : (x.armIfTx f).periph = x.periph := by cases f <;> rfl
@[simp] theorem State.armIfTx_rstAN (x : State) (f : FifoId) : (x.armIfTx f).rstAN = x.rstAN := by cases f <;> rfl
@[simp] theorem State.armIfTx_rstSN (x : State) (f : FifoId) : (x.armIfTx f).rstSN = x.rstSN := by cases f <;> rfl
@[simp] theorem State.armIfTx_serMode (x : State) (f : FifoId) : (x.armIfTx f).serMode = x.serMode := by cases f <;> rfl
@[simp] theorem State.armIfTx_ovrPolicy (x : State) (f : FifoId) : (x.armIfTx f).ovrPolicy = x.ovrPolicy := by cases f <;> rfl
@[simp] theorem State.armIfTx_syncStages (x : State) (f : FifoId) : (x.armIfTx f).syncStages = x.syncStages := by cases f <;> rfl
@[simp] theorem State.armIfTx_pending (x : State) (f : FifoId) : (x.armIfTx f).pending = x.pending := by cases f <;> rfl
@[simp] theorem State.armIfTx_drawn (x : State) (f : FifoId) : (x.armIfTx f).drawn = x.drawn := by cases f <;> rfl
@[simp] theorem State.armIfTx_tx_armed (x : State) : (x.armIfTx .tx).armed = true := rfl
@[simp] theorem State.armIfTx_rx_armed (x : State) : (x.armIfTx .rx).armed = x.armed := rfl
@[simp] theorem State.setFifo_tx_txf (x : State) (y : Fifo) : (x.setFifo .tx y).txf = y := rfl
@[simp] theorem State.setFifo_tx_rxf (x : State) (y : Fifo) : (x.setFifo .tx y).rxf = x.rxf := rfl
@[simp] theorem State.setFifo_rx_txf (x : State) (y : Fifo) : (x.setFifo .rx y).txf = x.txf := rfl
@[simp] theorem State.setFifo_rx_rxf (x : State) (y : Fifo) : (x.setFifo .rx y).rxf = y := rfl
@[simp] theorem State.fifo_tx (x : State) : x.fifo .tx = x.txf := rfl
@[simp] theorem State.fifo_rx (x : State) : x.fifo .rx = x.rxf := rfl
@[simp] theorem State.setFifo_fifo (x : State) (f : FifoId) (y : Fifo) : (x.setFifo f y).fifo f = y := by cases f <;> rfl

/-! `Periph.writeData`, `Periph.readData` and `Periph.clearRxne` -/

@[simp] theorem Periph.writeData_txe (p : Periph) (b : Byte) : (p.writeData b).txe = false := rfl
@[simp] theorem Periph.writeData_tdr (p : Periph) (b : Byte) : (p.writeData b).tdr = b := rfl
@[simp] theorem Periph.writeData_rxne (p : Periph) (b : Byte) : (p.writeData b).rxne = p.rxne := rfl
@[simp] theorem Periph.writeData_rdr (p : Periph) (b : Byte) : (p.writeData b).rdr = p.rdr := rfl
@[simp] theorem Periph.writeData_ore (p : Periph) (b : Byte) : (p.writeData b).ore = p.ore := rfl
@[simp] theorem Periph.writeData_lineOut (p : Periph) (b : Byte) : (p.writeData b).lineOut = p.lineOut := rfl
@[simp] theorem Periph.writeData_lineIn (p : Periph) (b : Byte) : (p.writeData b).lineIn = p.lineIn := rfl
@[simp] theorem Periph.clearRxne_txe (p : Periph) : (p.clearRxne).txe = p.txe := rfl
@[simp] theorem Periph.clearRxne_tdr (p : Periph) : (p.clearRxne).tdr = p.tdr := rfl
@[simp] theorem Periph.clearRxne_rxne (p : Periph) : (p.clearRxne).rxne = false := rfl
@[simp] theorem Periph.clearRxne_rdr (p : Periph) : (p.clearRxne).rdr = p.rdr := rfl
@[simp] theorem Periph.clearRxne_ore (p : Periph) : (p.clearRxne).ore = p.ore := rfl
@[simp] theorem Periph.clearRxne_lineOut (p : Periph) : (p.clearRxne).lineOut = p.lineOut := rfl
@[simp] theorem Periph.clearRxne_lineIn (p : Periph) : (p.clearRxne).lineIn = p.lineIn := rfl
@[simp] theorem Periph.readData_eq (p : Periph) : p.readData = p.rdr := rfl

end Sys2Proof.Machine
end

