-- ==== Sys2Proof/Laws/Ops.lean ====
section
/-! SUPPORT. What each shared operation can do, said once. -/

namespace Sys2Proof.Machine

theorem Fifo.flushReq_cases (f : Fifo) :
    (f.flushOutstanding = false ∧ f.flushReq = { f with flMark := f.wptr, flReq := !f.flReq }) ∨
    (f.flushOutstanding = true ∧ f.flushReq = { f with flNext := f.wptr, flPend := true }) := by
  cases h : f.flushOutstanding <;> simp [Fifo.flushReq, h]

theorem Fifo.advance_cases (f : Fifo) :
    (dist f.aw f.target f.rhead ≤ dist f.aw f.wqb f.rhead ∧
      f.advance = { f with rhead := f.target, drain := false }) ∨
    (dist f.aw f.wqb f.rhead < dist f.aw f.target f.rhead ∧ f.advance = { f with rhead := f.wqb }) := by
  by_cases h : dist f.aw f.target f.rhead ≤ dist f.aw f.wqb f.rhead
  · exact .inl ⟨h, by simp [Fifo.advance, h]⟩
  · exact .inr ⟨Nat.lt_of_not_le h, by simp [Fifo.advance, h]⟩

theorem Fifo.syncW2R_cases (f : Fifo) (v : Nat) :
    (f.drain = false ∧ f.syncW2R v = { f with wq := gray (BitVec.ofNat 16 v) }) ∨
    (f.drain = true ∧ f.syncW2R v = Fifo.advance { f with wq := gray (BitVec.ofNat 16 v) }) := by
  cases h : f.drain <;> simp [Fifo.syncW2R, h]

theorem Fifo.capture_cases (f : Fifo) :
    (f.flMark = f.rhead ∧
      f.capture = { f with fr := f.flReq, target := f.flMark, flAck := f.flReq, drain := false }) ∨
    (f.flMark ≠ f.rhead ∧
      f.capture = Fifo.advance { f with fr := f.flReq, target := f.flMark, flAck := f.flReq, drain := true }) := by
  by_cases h : f.flMark = f.rhead
  · exact .inl ⟨h, by simp [Fifo.capture, h]⟩
  · have h' : (f.flMark != f.rhead) = true := by simpa using h
    exact .inr ⟨h, by simp [Fifo.capture, h']⟩

theorem Fifo.ackSync_cases (f : Fifo) :
    (f.flAck = f.flReq ∧ f.flPend = true ∧
      f.ackSync = { f with fa := f.flAck, flMark := f.flNext, flReq := !f.flReq, flPend := false }) ∨
    (¬ (f.flAck = f.flReq ∧ f.flPend = true) ∧ f.ackSync = { f with fa := f.flAck }) := by
  by_cases h : f.flAck = f.flReq ∧ f.flPend = true
  · exact .inl ⟨h.1, h.2, by simp [Fifo.ackSync, h.1, h.2]⟩
  · exact .inr ⟨h, by simp [Fifo.ackSync, h]⟩

theorem State.txEnq_cases (s : State) (b : Byte) :
    (s.txf.wfull = true ∧ s.txEnq b = (false, { s with txf := s.txf.flushReq, errTx := true })) ∨
    (s.txf.wfull = false ∧ s.txEnq b = (true, { s with txf := s.txf.push b })) := by
  cases h : s.txf.wfull <;> simp [State.txEnq, h]

theorem State.rxEnq_cases (s : State) (b : Byte) :
    (s.rxf.wfull = true ∧ s.rxEnq b = (false, { s with rxf := s.rxf.flushReq, errRx := true })) ∨
    (s.rxf.wfull = false ∧ s.rxEnq b = (true, { s with rxf := s.rxf.push b })) := by
  cases h : s.rxf.wfull <;> simp [State.rxEnq, h]

theorem State.txDeq_cases (s : State) :
    (s.txf.rempty = true ∧ s.txDeq = (none, { s with armed := false })) ∨
    (s.txf.rempty = false ∧ s.txDeq = (some (s.txf.byteAt s.txf.rhead), { s with txf := s.txf.pop })) := by
  cases h : s.txf.rempty <;> simp [State.txDeq, h]

theorem State.rxDeq_cases (s : State) :
    (s.rxf.rempty = true ∧ s.rxDeq = (none, s)) ∨
    (s.rxf.rempty = false ∧ s.rxDeq = (some (s.rxf.byteAt s.rxf.rhead), { s with rxf := s.rxf.pop })) := by
  cases h : s.rxf.rempty <;> simp [State.rxDeq, h]

theorem State.serveTx_cases (s : State) :
    (s.txf.rempty = true ∧ s.serveTx = (none, { s with armed := false })) ∨
    (s.txf.rempty = false ∧
      s.serveTx = (some (s.txf.byteAt s.txf.rhead),
        State.writeData { s with txf := s.txf.pop } (s.txf.byteAt s.txf.rhead))) := by
  rcases s.txDeq_cases with ⟨h, e⟩ | ⟨h, e⟩
  · exact .inl ⟨h, by simp [State.serveTx, e]⟩
  · exact .inr ⟨h, by simp [State.serveTx, e]⟩

/-- Check 2 of `S_ISR` on the fields it writes: strobes, the peripheral, and RXF with its latch. -/
theorem State.serveRx_cases (s : State) :
    s.serveRx.1 = some s.periph.rdr ∧
    ((s.rxf.wfull = true ∧
      s.serveRx.2 = { s with rxf := s.rxf.flushReq, errRx := true,
                             strobes := { s.strobes with pRd := true, pClrRxne := true },
                             periph := { s.periph with rxne := false } }) ∨
     (s.rxf.wfull = false ∧
      s.serveRx.2 = { s with rxf := s.rxf.push s.periph.rdr,
                             strobes := { s.strobes with pRd := true, pClrRxne := true },
                             periph := { s.periph with rxne := false } })) := by
  refine ⟨rfl, ?_⟩
  cases h : s.rxf.wfull <;> simp [State.serveRx, State.readData, State.rxEnq, State.clearRxne, Periph.readData,
    Periph.clearRxne, h]

/-- Check 1 leaves what check 2 reads: RXF, its latch, and the received byte. -/
theorem State.serveTx_rx (s : State) :
    s.serveTx.2.rxf = s.rxf ∧ s.serveTx.2.errRx = s.errRx ∧ s.serveTx.2.periph.rdr = s.periph.rdr ∧
      s.serveTx.2.periph.rxne = s.periph.rxne := by
  rcases s.serveTx_cases with ⟨_, e⟩ | ⟨_, e⟩ <;> rw [e] <;> exact ⟨rfl, rfl, rfl, rfl⟩

/-- `S_ISR`: which of the two checks run, and the response. -/
theorem execSIsr_cases (d : Byte) (s : State) :
    (s.txp = false ∧ s.rxp = false ∧ execSIsr d s = .next (s.rspS 0 false false false)) ∨
    (s.txp = true ∧ s.rxp = false ∧ execSIsr d s =
      .next (s.serveTx.2.rspS (0#8 ++ byteOrZero s.serveTx.1) s.serveTx.1.isSome false false)) ∨
    (s.txp = false ∧ s.rxp = true ∧ execSIsr d s =
      .next (s.serveRx.2.rspS (s.periph.rdr ++ 0#8) false true false)) ∨
    (s.txp = true ∧ s.rxp = true ∧ execSIsr d s =
      .next (s.serveTx.2.serveRx.2.rspS (s.periph.rdr ++ byteOrZero s.serveTx.1) s.serveTx.1.isSome true false)) := by
  cases ht : s.txp <;> cases hr : s.rxp <;>
    simp [execSIsr, ht, hr, byteOrZero, (State.serveRx_cases _).1, (State.serveTx_rx s).2.2.1]

theorem State.requestErrClear_cases (s : State) :
    (s.ecReq = s.ecAckQ ∧ s.requestErrClear = { s with ecReq := !s.ecReq }) ∨
    (s.ecReq ≠ s.ecAckQ ∧ s.requestErrClear = { s with ecPend := true }) := by
  by_cases h : s.ecReq = s.ecAckQ <;> simp [State.requestErrClear, h]

theorem State.ecAckSync_cases (s : State) :
    (s.ecAck = s.ecReq ∧ s.ecPend = true ∧
      s.ecAckSync = { s with ecAckQ := s.ecAck, ecReq := !s.ecReq, ecPend := false }) ∨
    (¬ (s.ecAck = s.ecReq ∧ s.ecPend = true) ∧ s.ecAckSync = { s with ecAckQ := s.ecAck }) := by
  by_cases h : s.ecAck = s.ecReq ∧ s.ecPend = true
  · exact .inl ⟨h.1, h.2, by simp [State.ecAckSync, h.1, h.2]⟩
  · exact .inr ⟨h, by simp [State.ecAckSync, h]⟩

theorem State.internalStep_cases (s : State) (k : InternalStep) :
    (s.internalEnabled k = true ∧ s.internalStep k = s.internalEffect k) ∨
    (s.internalEnabled k = false ∧ s.internalStep k = s) := by
  cases h : s.internalEnabled k <;> simp [State.internalStep, h]

/-- A change of the reset inputs: refused, without effect, or to the reset values. -/
theorem State.setResetPins_cases (s : State) (a b : Bool) :
    (s.inReset = false ∧ a ≠ b ∧ s.setResetPins a b = .refused .partialReset) ∨
    (s.inReset = false ∧ a = true ∧ b = true ∧ s.setResetPins a b = .next s) ∨
    ((s.inReset = true ∨ (a = false ∧ b = false)) ∧ s.setResetPins a b = .next (s.resetTo a b)) := by
  cases h : s.inReset <;> cases a <;> cases b <;> simp [State.setResetPins, h]

end Sys2Proof.Machine
end

