-- ==== Sys2Proof/Laws/Events.lean ====
section
/-! SUPPORT. What one transition can do, said once. -/

namespace Sys2Proof.Machine

/-- A transition with both resets released. -/
theorem stepEvent_running {s : State} (h : s.inReset = false) (e : Event) : stepEvent e s = runEvent e s := by
  cases e <;> simp [stepEvent, runEvent, h]

/-- A transition with a reset input low: nothing happens but for a change of the reset inputs. -/
theorem stepEvent_inReset {s : State} (h : s.inReset = true) {e : Event} (he : isResetEvent e = false) :
    stepEvent e s = .next s := by
  cases e <;> simp_all [stepEvent, isResetEvent, agentOf]

theorem dispatcherTurn_cases (s : State) :
    (s.dispatchEnabled = true ∧ dispatcherTurn s = exec (.sIsr 0) s) ∨
    (s.dispatchEnabled = false ∧ dispatcherTurn s = .next s) := by
  cases h : s.dispatchEnabled <;> simp [dispatcherTurn, h]

theorem acceptSer_cases (w : Cmd) (s : State) :
    (s.serMode = .external ∧ acceptSer w s = exec (decode .ser w) s) ∨
    (s.serMode = .auto ∧ acceptSer w s = .next s) := by
  cases h : s.serMode <;> simp [acceptSer, h]

/-- A step takes the oldest scheduled event, where one is scheduled. -/
theorem step_of_pending {s : State} {e : Event} {es : List Event} (h : s.pending = e :: es) :
    step s = stepEvent e (State.strobesDown { s with pending := es }) := by
  simp [step, stepNext, State.nextEvent, State.drawEvent, h]

/-- Without a schedule a step takes the environment's free choice. -/
theorem step_of_no_pending {s : State} (h : s.pending = []) :
    step s = stepEvent (Config.freeEvent s.drawn) (State.strobesDown { s with drawn := s.drawn + 1 }) := by
  simp [step, stepNext, State.nextEvent, State.drawEvent, h]

end Sys2Proof.Machine
end

