-- ==== Sys2Proof/Laws/PerInstr.lean ====
section
/-! SUPPORT. Facts about every instruction as syntax, one lemma per constructor. -/

namespace Sys2Proof.Laws

/-- The word of an instruction holds its operation code in bits [11:8] and its byte in bits [7:0] (R110). -/
def EncodedFields.Statement (i : Instr) : Prop :=
  opField (encode i) = opcodeOf i ∧ byteField (encode i) = byteOf i

theorem EncodedFields.of_any (i : Instr) : EncodedFields.Statement i := by
  constructor
  · apply BitVec.eq_of_getLsbD_eq
    intro k hk
    rw [opField, BitVec.getLsbD_extractLsb', decide_eq_true hk, Bool.true_and]
    change BitVec.getLsbD (w := 4 + 8) (opcodeOf i ++ byteOf i) (8 + k) = _
    rw [BitVec.getLsbD_append, if_neg (by omega), Nat.add_sub_cancel_left]
  · apply BitVec.eq_of_getLsbD_eq
    intro k hk
    rw [byteField, BitVec.getLsbD_extractLsb', decide_eq_true hk, Bool.true_and, Nat.zero_add]
    change BitVec.getLsbD (w := 4 + 8) (opcodeOf i ++ byteOf i) k = _
    rw [BitVec.getLsbD_append, if_pos hk]

theorem EncodedFields.aNop (d8 : Byte) : EncodedFields.Statement (.aNop d8) := of_any _
theorem EncodedFields.aTxEnq (d8 : Byte) : EncodedFields.Statement (.aTxEnq d8) := of_any _
theorem EncodedFields.aTxCount (d8 : Byte) : EncodedFields.Statement (.aTxCount d8) := of_any _
theorem EncodedFields.aTxFull (d8 : Byte) : EncodedFields.Statement (.aTxFull d8) := of_any _
theorem EncodedFields.aRxDeq (d8 : Byte) : EncodedFields.Statement (.aRxDeq d8) := of_any _
theorem EncodedFields.aRxCount (d8 : Byte) : EncodedFields.Statement (.aRxCount d8) := of_any _
theorem EncodedFields.aErrRead (d8 : Byte) : EncodedFields.Statement (.aErrRead d8) := of_any _
theorem EncodedFields.aErrClr (d8 : Byte) : EncodedFields.Statement (.aErrClr d8) := of_any _
theorem EncodedFields.aReserved8 (d8 : Byte) : EncodedFields.Statement (.aReserved8 d8) := of_any _
theorem EncodedFields.aReserved9 (d8 : Byte) : EncodedFields.Statement (.aReserved9 d8) := of_any _
theorem EncodedFields.aReservedA (d8 : Byte) : EncodedFields.Statement (.aReservedA d8) := of_any _
theorem EncodedFields.aReservedB (d8 : Byte) : EncodedFields.Statement (.aReservedB d8) := of_any _
theorem EncodedFields.aReservedC (d8 : Byte) : EncodedFields.Statement (.aReservedC d8) := of_any _
theorem EncodedFields.aReservedD (d8 : Byte) : EncodedFields.Statement (.aReservedD d8) := of_any _
theorem EncodedFields.aReservedE (d8 : Byte) : EncodedFields.Statement (.aReservedE d8) := of_any _
theorem EncodedFields.aReservedF (d8 : Byte) : EncodedFields.Statement (.aReservedF d8) := of_any _
theorem EncodedFields.sNop (d8 : Byte) : EncodedFields.Statement (.sNop d8) := of_any _
theorem EncodedFields.sIsr (d8 : Byte) : EncodedFields.Statement (.sIsr d8) := of_any _
theorem EncodedFields.sTxDeq (d8 : Byte) : EncodedFields.Statement (.sTxDeq d8) := of_any _
theorem EncodedFields.sRxEnq (d8 : Byte) : EncodedFields.Statement (.sRxEnq d8) := of_any _
theorem EncodedFields.sTxCount (d8 : Byte) : EncodedFields.Statement (.sTxCount d8) := of_any _
theorem EncodedFields.sTxFull (d8 : Byte) : EncodedFields.Statement (.sTxFull d8) := of_any _
theorem EncodedFields.sReserved6 (d8 : Byte) : EncodedFields.Statement (.sReserved6 d8) := of_any _
theorem EncodedFields.sReserved7 (d8 : Byte) : EncodedFields.Statement (.sReserved7 d8) := of_any _
theorem EncodedFields.sReserved8 (d8 : Byte) : EncodedFields.Statement (.sReserved8 d8) := of_any _
theorem EncodedFields.sReserved9 (d8 : Byte) : EncodedFields.Statement (.sReserved9 d8) := of_any _
theorem EncodedFields.sReservedA (d8 : Byte) : EncodedFields.Statement (.sReservedA d8) := of_any _
theorem EncodedFields.sReservedB (d8 : Byte) : EncodedFields.Statement (.sReservedB d8) := of_any _
theorem EncodedFields.sReservedC (d8 : Byte) : EncodedFields.Statement (.sReservedC d8) := of_any _
theorem EncodedFields.sReservedD (d8 : Byte) : EncodedFields.Statement (.sReservedD d8) := of_any _
theorem EncodedFields.sReservedE (d8 : Byte) : EncodedFields.Statement (.sReservedE d8) := of_any _
theorem EncodedFields.sReservedF (d8 : Byte) : EncodedFields.Statement (.sReservedF d8) := of_any _

end Sys2Proof.Laws
end

