-- ==== Sys2Proof/Laws/Runs.lean ====
section
/-! SUPPORT. Runs one event at a time, what leaves a FIFO, and the two checks of the abstract interrupt entry. -/

namespace Sys2Proof.Machine

section
variable {e : Event} {es : List Event} {s t : State}

theorem runEvents_cons (h : stepEvent e s.strobesDown = .next t) : runEvents (e :: es) s = runEvents es t := by
  simp only [runEvents, h]

/-- A run that ends in a state took its first event. -/
theorem runEvents_cons_inv {u : State} (h : runEvents (e :: es) s = .next u) :
    ∃ t, stepEvent e s.strobesDown = .next t ∧ runEvents es t = .next u := by
  simp only [runEvents] at h
  split at h
  · exact ⟨_, ‹_›, h⟩
  · cases h
  · cases h

theorem acceptedIn_cons (f : FifoId) (h : stepEvent e s.strobesDown = .next t) :
    acceptedIn f (e :: es) s = acceptedBy f e s ++ acceptedIn f es t := by
  simp only [acceptedIn, h]

theorem takenIn_cons (f : FifoId) (h : stepEvent e s.strobesDown = .next t) :
    takenIn f (e :: es) s = takenBy f e s ++ takenIn f es t := by
  simp only [takenIn, h]

theorem exitsIn_cons (f : FifoId) (h : stepEvent e s.strobesDown = .next t) :
    exitsIn f (e :: es) s = exitsBy f e s ++ exitsIn f es t := by
  simp only [exitsIn, h]

theorem flushesIn_cons (f : FifoId) (h : stepEvent e s.strobesDown = .next t) :
    flushesIn f (e :: es) s = (capturesFlush f e s || flushesIn f es t) := by
  simp only [flushesIn, h]

end

/-- Nothing is discarded but by an enabled capture, or by an enabled view update while draining. -/
theorem discardedBy_cases (f : FifoId) (e : Event) (s : State) :
    discardedBy f e s = [] ∨
    (capturesFlush f e s = true ∧ discardedBy f e s = (s.fifo f).skippedTo (s.fifo f).capture) ∨
    (∃ v, e = .internal (.syncW2R f v) ∧ s.inReset = false ∧ s.internalEnabled (.syncW2R f v) = true ∧
      (s.fifo f).drain = true ∧ discardedBy f e s = (s.fifo f).skippedTo ((s.fifo f).syncW2R v)) := by
  unfold discardedBy
  split
  · rename_i g
    split
    · rename_i h
      obtain ⟨⟨rfl, hr⟩, he⟩ : (g = f ∧ s.inReset = false) ∧ s.internalEnabled (.capture g) = true := by simpa using h
      exact .inr (.inl ⟨by simp [capturesFlush, hr, he], rfl⟩)
    · exact .inl rfl
  · rename_i g v
    split
    · rename_i h
      obtain ⟨⟨⟨rfl, hr⟩, he⟩, hd⟩ :
          ((g = f ∧ s.inReset = false) ∧ s.internalEnabled (.syncW2R g v) = true) ∧ (s.fifo f).drain = true := by
        simpa using h
      exact .inr (.inr ⟨v, rfl, hr, he, hd, rfl⟩)
    · exact .inl rfl
  · exact .inl rfl

theorem exitsBy_bytes (f : FifoId) (e : Event) (s : State) :
    (exitsBy f e s).map Exit.byte = takenBy f e s ++ discardedBy f e s := by
  simp [exitsBy, Function.comp_def, Exit.byte]

theorem exitsBy_obtained (f : FifoId) (e : Event) (s : State) :
    (exitsBy f e s).filterMap Exit.obtained = takenBy f e s := by
  simp [exitsBy, List.filterMap_append, List.filterMap_map, Function.comp_def, Exit.obtained]

theorem Abs.serveTx_cases (a : Abs) (p : Periph) :
    (a.txPending p = false ∧ a.serveTx p = (none, a, p)) ∨
    (a.txPending p = true ∧ a.txq = [] ∧ a.serveTx p = (none, { a with txie := false }, p)) ∨
    (a.txPending p = true ∧ ∃ b q, a.txq = b :: q ∧ a.serveTx p = (some b, { a with txq := q }, p.writeData b)) := by
  cases h : a.txPending p
  · exact .inl ⟨rfl, by simp [Abs.serveTx, h]⟩
  · cases hq : a.txq with
    | nil => exact .inr (.inl ⟨rfl, rfl, by simp [Abs.serveTx, h, Abs.txDequeue, hq]⟩)
    | cons b q => exact .inr (.inr ⟨rfl, b, q, rfl, by simp [Abs.serveTx, h, Abs.txDequeue, hq]⟩)

theorem Abs.serveRx_cases (a : Abs) (p : Periph) :
    (p.rxne = false ∧ a.serveRx p = (none, a, p)) ∨
    (p.rxne = true ∧ a.serveRx p = (some p.rdr, (a.rxEnqueue p.rdr).2, p.clearRxne)) := by
  cases h : p.rxne <;> simp [Abs.serveRx, h]

end Sys2Proof.Machine
end

