-- ==== Sys2Proof/Tests/Slice0.lean ====
section
/-! SUPPORT. The model's own tests: ill-formed terms, a written word for every command, small one-step vectors of
95_test_vectors.md, and a witness for the hypotheses of every statement that has some. -/

namespace Sys2Proof.Tests

open Sys2Proof Sys2Proof.Machine

/-! ### Helpers -/

/-- The next state, where there is one. -/
def nextOf : Host.Outcome State Fault Refusal → Option State
  | .next t => some t
  | .fault _ => none
  | .refused _ => none

/-- The machine after reset with the two address widths and the mode given. -/
def build (a b : Fin 16) (m : SerCmdMode) : State :=
  State.ofConfig { awTx := a, awRx := b, serCmdMode := m, rxOvrPolicy := .keepOld, syncStages := 2 }

/-- `C_TX = 4`, `C_RX = 2`, EXTERNAL, after reset (95_test_vectors.md, conventions). -/
def ext : State := build 2 1 .external

/-- The same in AUTO mode. -/
def auto : State := build 2 1 .auto

/-- A FIFO with the pointers `wptr/wpub/rqb | rhead/rpub/wqb`, in binary as the vectors give them. -/
def chain (aw : Fin 16) (wptr wpub rqb rhead rpub wqb : Ptr) : Fifo :=
  { Fifo.reset aw with wptr := wptr, wpub := wpub, rq := gray rqb, rhead := rhead, rpub := rpub, wq := gray wqb }

/-- TXF `4/4/0 | 0/0/4`, full and settled, holding 'A', 'B', 'C', 'D' (vector A4). -/
def full : State :=
  { ext with txf := { chain 2 4 4 0 0 0 4 with mem := [(0, 0x41), (1, 0x42), (2, 0x43), (3, 0x44)] }, armed := true }

/-- `full` after an overflow (vector A5): a flush is outstanding and not captured. -/
def flushing : State :=
  { full with txf := { full.txf with flMark := 4, flReq := true }, errTx := true,
              aRspValid := true }

/-- `full` after two overflows (vector A6): a second flush is remembered. -/
def flushing2 : State :=
  { flushing with txf := { flushing.txf with flNext := 4, flPend := true } }

/-- 'A' is visible to the SER domain and the data register is empty (vector S1). -/
def visible (m : SerCmdMode) : State :=
  { build 2 1 m with txf := { chain 2 1 1 0 0 0 1 with mem := [(0, 0x41)] }, armed := true }

/-- `visible` with a received byte waiting (vector S2). -/
def both (m : SerCmdMode) : State :=
  { visible m with periph := { Periph.reset with rxne := true, rdr := 0x55 } }

/-- RXF is full in the SER domain's view (vector S10). -/
def rxFull : State := { ext with rxf := { chain 1 2 2 0 0 0 2 with mem := [(0, 0x10), (1, 0x20)] } }

/-- Both FIFOs with published bytes unseen and published reads unseen. In TXF every step of the chain is enabled. -/
def moving (m : SerCmdMode) : State :=
  { build 2 1 m with
    txf := { chain 2 4 3 0 2 1 2 with mem := [(2, 0x43), (3, 0x44)] }
    rxf := { chain 1 2 2 0 1 1 1 with mem := [(0, 0x10), (1, 0x20)] } }

/-! ### Ill-formed terms are refused -/

theorem test_wf_port_app : (Instr.sIsr 0x00).wellFormedOn .app = false := by decide
theorem test_wf_port_ser : (Instr.aTxEnq 0x41).wellFormedOn .ser = false := by decide
theorem test_wf_port_ok : (Instr.aTxEnq 0x41).wellFormedOn .app = true ∧ (Instr.sIsr 0).wellFormedOn .ser = true := by
  decide
theorem test_wf_draw_tx : (InternalStep.syncR2W .tx 8).wellFormed Config.default = false ∧
    (InternalStep.syncW2R .tx 8).wellFormed Config.default = false := by decide
theorem test_wf_draw_rx : (InternalStep.syncR2W .rx 4).wellFormed Config.default = false ∧
    (InternalStep.syncW2R .rx 4).wellFormed Config.default = false := by decide
theorem test_wf_draw_ok : (InternalStep.syncR2W .tx 7).wellFormed Config.default = true ∧
    (InternalStep.syncW2R .rx 3).wellFormed Config.default = true := by decide
theorem test_wf_stages : Config.wellFormed { Config.default with syncStages := 1 } = false ∧
    Config.default.wellFormed = true := by decide
theorem test_config_refused :
    boot 3 2 .auto .keepOld 2 = .error .txCapacity ∧ boot 0 2 .auto .keepOld 2 = .error .txCapacity ∧
    boot 65536 2 .auto .keepOld 2 = .error .txCapacity ∧ boot 4 6 .auto .keepOld 2 = .error .rxCapacity ∧
    boot 4 2 .auto .keepOld 1 = .error .syncStages := ⟨rfl, rfl, rfl, rfl, rfl⟩
theorem test_config_accepted : boot 32768 1 .external .takeNew 3 = .ok (State.ofConfig
    { awTx := 15, awRx := 0, serCmdMode := .external, rxOvrPolicy := .takeNew, syncStages := 3 }) := rfl

/-! ### Decoding: the words of 30_encoding.md R111, R112 and 95_test_vectors.md section 2.1, bit 11 first -/

theorem test_decode_aNop : decode .app 0b0000_11111111#12 = .aNop 0xFF := by decide
theorem test_decode_aTxEnq : decode .app 0b0001_01000001#12 = .aTxEnq 0x41 := by decide
theorem test_decode_aTxCount : decode .app 0b0010_10101011#12 = .aTxCount 0xAB := by decide
theorem test_decode_aTxFull : decode .app 0b0011_00000000#12 = .aTxFull 0 := by decide
theorem test_decode_aRxDeq : decode .app 0b0100_00000000#12 = .aRxDeq 0 := by decide
theorem test_decode_aRxCount : decode .app 0b0101_00000000#12 = .aRxCount 0 := by decide
theorem test_decode_aErrRead : decode .app 0b0110_00000000#12 = .aErrRead 0 := by decide
theorem test_decode_aErrClr : decode .app 0b0111_11111111#12 = .aErrClr 0xFF := by decide
theorem test_decode_aReserved8 : decode .app 0b1000_00000000#12 = .aReserved8 0 := by decide
theorem test_decode_aReserved9 : decode .app 0b1001_10101011#12 = .aReserved9 0xAB := by decide
theorem test_decode_aReservedA : decode .app 0b1010_00000001#12 = .aReservedA 1 := by decide
theorem test_decode_aReservedB : decode .app 0b1011_00000010#12 = .aReservedB 2 := by decide
theorem test_decode_aReservedC : decode .app 0b1100_00000100#12 = .aReservedC 4 := by decide
theorem test_decode_aReservedD : decode .app 0b1101_00001000#12 = .aReservedD 8 := by decide
theorem test_decode_aReservedE : decode .app 0b1110_00010000#12 = .aReservedE 0x10 := by decide
theorem test_decode_aReservedF : decode .app 0b1111_11111111#12 = .aReservedF 0xFF := by decide
theorem test_decode_sNop : decode .ser 0b0000_00000000#12 = .sNop 0 := by decide
theorem test_decode_sIsr : decode .ser 0b0001_11000011#12 = .sIsr 0xC3 := by decide
theorem test_decode_sTxDeq : decode .ser 0b0010_00000000#12 = .sTxDeq 0 := by decide
theorem test_decode_sRxEnq : decode .ser 0b0011_00010000#12 = .sRxEnq 0x10 := by decide
theorem test_decode_sTxCount : decode .ser 0b0100_00000000#12 = .sTxCount 0 := by decide
theorem test_decode_sTxFull : decode .ser 0b0101_10101011#12 = .sTxFull 0xAB := by decide
theorem test_decode_sReserved6 : decode .ser 0b0110_11111111#12 = .sReserved6 0xFF := by decide
theorem test_decode_sReserved7 : decode .ser 0b0111_00000001#12 = .sReserved7 1 := by decide
theorem test_decode_sReserved8 : decode .ser 0b1000_00000010#12 = .sReserved8 2 := by decide
theorem test_decode_sReserved9 : decode .ser 0b1001_00000100#12 = .sReserved9 4 := by decide
theorem test_decode_sReservedA : decode .ser 0b1010_00001000#12 = .sReservedA 8 := by decide
theorem test_decode_sReservedB : decode .ser 0b1011_00010000#12 = .sReservedB 0x10 := by decide
theorem test_decode_sReservedC : decode .ser 0b1100_00100000#12 = .sReservedC 0x20 := by decide
theorem test_decode_sReservedD : decode .ser 0b1101_01000000#12 = .sReservedD 0x40 := by decide
theorem test_decode_sReservedE : decode .ser 0b1110_10000000#12 = .sReservedE 0x80 := by decide
theorem test_decode_sReservedF : decode .ser 0b1111_11111111#12 = .sReservedF 0xFF := by decide
theorem test_decode_same_word_two_ports : decode .app 0x141#12 = .aTxEnq 0x41 ∧ decode .ser 0x141#12 = .sIsr 0x41 := by
  decide
theorem test_decode_refused_by_name :
    decodeNumber .app 12 0x1000 = .error .widerThanStated ∧
    decodeNumber .app 16 0x1000 = .error .wiresAboveTheCommand ∧ decodeTableWord 8 0x141 = none ∧
    decodeTableWord 16 0x2000 = none := ⟨rfl, rfl, rfl, rfl⟩
theorem test_decode_table_word :
    decodeTableWord 16 0x0141 = some (.aTxEnq 0x41) ∧ decodeTableWord 16 0x1310 = some (.sRxEnq 0x10) :=
  ⟨rfl, rfl⟩
theorem test_encode : encode (.aTxEnq 0x41) = 0x141#12 ∧ encode (.sRxEnq 0xA5) = 0x3A5#12 := by decide

/-! ### Responses, gray codes (section 2.1) -/

theorem test_pack : Response.pack { val := 0x5541, f0 := true, f1 := true, ill := false } = 0x35541#19 ∧
    Response.pack { val := 0x7E00, f0 := false, f1 := true, ill := false } = 0x27E00#19 ∧
    Response.pack { val := 0x8000, f0 := false, f1 := false, ill := false } = 0x08000#19 ∧
    Response.pack { val := 0, f0 := false, f1 := false, ill := true } = 0x40000#19 := by decide
theorem test_gray : gray 5 = 7 ∧ ungray 7 = 5 ∧ gray 15 = 8 ∧ ungray 8 = 15 ∧ ungray 3 = 2 ∧ ungray 6 = 4 ∧
    gray 1 = 1 := by decide
theorem test_wrap : ptrSucc 2 7 = 0 ∧ ptrSucc 15 0xFFFF = 0 ∧ dist 2 1 7 = 2 ∧ dist 15 0 0xFFFF = 1 ∧
    slotOf 2 7 = 3 ∧ slotOf 0 1 = 0 := by decide

/-! ### The application port (section 2.2) -/

theorem test_A1 : (nextOf (exec (.aNop 0) ext)).map (fun t => (t.aRsp.pack, t.aRspValid)) = some (0x00000#19, true) := by
  decide
theorem test_A2 : (nextOf (exec (.aTxEnq 0xC7) ext)).map
    (fun t => (t.aRsp.pack, t.txf.mem.read 0, t.txf.wptr)) = some (0x10000#19, 0xC7#8, 1#16) := by decide
theorem test_A3 : (nextOf (exec (.aTxCount 0) ext)).map (fun t => t.aRsp.pack) = some 0x00000#19 ∧
    (nextOf (exec (.aTxCount 0) full)).map (fun t => t.aRsp.pack) = some 0x00004#19 := by decide
theorem test_A4 : (nextOf (exec (.aTxFull 0) full)).map (fun t => t.aRsp.pack) = some 0x10000#19 ∧
    (nextOf (exec (.aTxFull 0) ext)).map (fun t => t.aRsp.pack) = some 0x00000#19 := by decide
theorem test_A5 : (nextOf (exec (.aTxEnq 0x45) full)).map
    (fun t => (t.aRsp.pack, t.errTx, t.txf.flMark, t.txf.flReq, t.txf.wptr)) =
      some (0x00000#19, true, 4#16, true, 4#16) := by decide
theorem test_A6 : (nextOf (exec (.aTxEnq 0x46) flushing)).map
    (fun t => (t.aRsp.pack, t.txf.flNext, t.txf.flPend, t.txf.flReq)) = some (0x00000#19, 4#16, true, true) := by decide
theorem test_A7 : (nextOf (exec (.aRxDeq 0) ext)).map (fun t => (t.aRsp.pack, t.rxf.rhead)) =
    some (0x00000#19, 0#16) := by decide
theorem test_A8 : (nextOf (exec (.aRxDeq 0) { ext with rxf := chain 1 1 1 0 0 0 1 })).map
    (fun t => (t.aRsp.pack, t.rxf.rhead)) = some (0x10000#19, 1#16) := by decide
theorem test_A9 : (nextOf (exec (.aRxCount 0)
    { ext with rxf := { chain 1 2 1 0 1 0 1 with drain := true, target := 2 } })).map (fun t => t.aRsp.pack) =
      some 0x00000#19 ∧
    (nextOf (exec (.aRxCount 0) rxFull)).map (fun t => t.aRsp.pack) = some 0x00002#19 := by decide
theorem test_A_err_read : (nextOf (exec (.aErrRead 0) { ext with errTx := true })).map (fun t => t.aRsp.pack) =
      some 0x10001#19 ∧
    (nextOf (exec (.aErrRead 0) { ext with errRxQ := true })).map (fun t => t.aRsp.pack) = some 0x10002#19 := by decide
theorem test_A_err_read_both : (nextOf (exec (.aErrRead 0) { ext with errTx := true, errRxQ := true })).map
    (fun t => t.aRsp.pack) = some 0x10003#19 ∧
    (nextOf (exec (.aErrRead 0) ext)).map (fun t => t.aRsp.pack) = some 0x00000#19 := by decide
theorem test_A10 : (nextOf (exec (.aErrClr 0) { ext with errTx := true })).map
    (fun t => (t.aRsp.pack, t.errTx, t.ecReq, t.ecPend)) = some (0x00000#19, false, true, false) := by decide
theorem test_A11 : (nextOf (exec (.aErrClr 0) { ext with ecReq := true })).map
    (fun t => (t.aRsp.pack, t.ecReq, t.ecPend)) = some (0x00000#19, true, true) := by decide
theorem test_A12 : (nextOf (exec (decode .app 0x9AB) ext)).map (fun t => (t.aRsp.pack, t.txf.wptr)) =
    some (0x40000#19, 0#16) := by decide
theorem test_A_reserved_ends : (nextOf (exec (decode .app 0x800) ext)).map (fun t => t.aRsp.pack) = some 0x40000#19 ∧
    (nextOf (exec (decode .app 0xFFF) ext)).map (fun t => t.aRsp.pack) = some 0x40000#19 := by decide
theorem test_A_capacity_one : (nextOf (exec (.aTxEnq 0x22) { build 0 0 .external with
    txf := { chain 0 1 0 0 0 0 0 with mem := [(0, 0x11)] } })).map (fun t => (t.aRsp.pack, t.errTx)) =
      some (0x00000#19, true) := by decide

/-! ### The serial port (section 2.3) -/

theorem test_S_nop : (nextOf (exec (.sNop 0) ext)).map (fun t => (t.sRsp.pack, t.sRspValid)) =
    some (0x00000#19, true) := by decide
theorem test_S1 : (nextOf (exec (.sIsr 0) (visible .external))).map
    (fun t => (t.sRsp.pack, t.periph.tdr, t.periph.txe, t.txf.rhead, t.armed)) =
      some (0x10041#19, 0x41#8, false, 1#16, true) := by decide
theorem test_S2 : (nextOf (exec (.sIsr 0) (both .external))).map
    (fun t => (t.sRsp.pack, t.periph.tdr, t.rxf.mem.read 0, t.rxf.wptr, t.periph.rxne)) =
      some (0x35541#19, 0x41#8, 0x55#8, 1#16, false) := by decide
theorem test_S3 : (nextOf (exec (.sIsr 0) { ext with periph := { Periph.reset with rxne := true, rdr := 0x7E } })).map
    (fun t => (t.sRsp.pack, t.armed, t.rxf.mem.read 0, t.strobes.pWr)) =
      some (0x27E00#19, false, 0x7E#8, none) := by decide
theorem test_S4 : (nextOf (exec (.sIsr 0) { ext with armed := true, periph := { Periph.reset with txe := false } })).map
    (fun t => (t.sRsp.pack, t.armed)) = some (0x00000#19, true) := by decide
theorem test_S5 : (nextOf (exec (.sIsr 0) { ext with armed := true })).map
    (fun t => (t.sRsp.pack, t.armed, t.irq)) = some (0x00000#19, false, false) := by decide
theorem test_S6 : (nextOf (exec (.sIsr 0) { build 2 0 .external with
    rxf := { chain 0 1 1 0 0 0 1 with mem := [(0, 0x11)] },
    periph := { Periph.reset with rxne := true, rdr := 0x99 } })).map
      (fun t => (t.sRsp.pack, t.errRx, t.rxf.flMark, t.rxf.flReq, t.periph.rxne)) =
        some (0x29900#19, true, 1#16, true, false) := by decide
theorem test_S8 : (nextOf (exec (.sTxDeq 0) { ext with armed := true })).map (fun t => (t.sRsp.pack, t.armed)) =
    some (0x00000#19, false) := by decide
theorem test_S_tx_deq : (nextOf (exec (.sTxDeq 0) (visible .external))).map
    (fun t => (t.sRsp.pack, t.armed, t.txf.rhead)) = some (0x10041#19, true, 1#16) := by decide
theorem test_S9 : (nextOf (exec (.sRxEnq 0x10) ext)).map (fun t => (t.sRsp.pack, t.rxf.mem.read 0, t.rxf.wptr)) =
    some (0x10000#19, 0x10#8, 1#16) := by decide
theorem test_S10 : (nextOf (exec (.sRxEnq 0x30) rxFull)).map
    (fun t => (t.sRsp.pack, t.errRx, t.rxf.flMark, t.rxf.flReq)) = some (0x00000#19, true, 2#16, true) := by decide
theorem test_S11 : (nextOf (exec (.sTxCount 0) { ext with txf := chain 2 3 3 0 0 0 3 })).map (fun t => t.sRsp.pack) =
      some 0x00003#19 ∧
    (nextOf (exec (.sTxFull 0) { ext with txf := chain 2 3 3 0 0 0 3 })).map (fun t => t.sRsp.pack) =
      some 0x00000#19 := by decide
theorem test_S_tx_full : (nextOf (exec (.sTxFull 0) full)).map (fun t => t.sRsp.pack) = some 0x10000#19 := by decide
theorem test_S12 : (nextOf (exec (.sTxCount 0) { ext with txf := chain 2 3 1 0 0 0 1 })).map (fun t => t.sRsp.pack) =
      some 0x00001#19 ∧
    (nextOf (exec (.aTxCount 0) { ext with txf := chain 2 3 1 0 0 0 1 })).map (fun t => t.aRsp.pack) =
      some 0x00003#19 := by decide
theorem test_S13 : (nextOf (exec (decode .ser 0x6FF) ext)).map (fun t => (t.sRsp.pack, t.aRsp.pack)) =
    some (0x40000#19, 0x00000#19) := by decide

/-! ### Clock-domain crossing (section 2.4) -/

theorem test_X1 : (nextOf (stepEvent (.internal (.wPub .tx)) { ext with txf := chain 2 3 1 0 0 0 0 })).map
    (fun t => (t.txf.wpub, t.txf.wgray)) = some (2#16, 3#16) := by decide
theorem test_X2 : State.internalEnabled { ext with
    txf := { chain 2 5 4 1 1 1 4 with flReq := true, flMark := 4 } } (.wPub .tx) = false := by decide
theorem test_X3 : ([0, 1, 2, 3, 4].map fun v =>
      State.internalEnabled { ext with txf := chain 2 3 3 0 3 3 3 } (.syncR2W .tx v)) = [false, true, true, true, false] ∧
    (nextOf (stepEvent (.internal (.syncR2W .tx 2)) { ext with txf := chain 2 3 3 0 3 3 3 })).map
      (fun t => (t.txf.rq, t.txf.wcount)) = some (3#16, 1) := by decide
theorem test_X4 : (nextOf (stepEvent (.internal (.syncW2R .tx 1)) { ext with txf := chain 2 1 1 0 0 0 0 })).map
    (fun t => (t.txf.wq, t.armed, t.txf.rcount)) = some (1#16, true, 1) := by decide
theorem test_X5 : (nextOf (stepEvent (.internal (.syncW2R .rx 1)) { ext with rxf := chain 1 1 1 0 0 0 0 })).map
    (fun t => (t.rxf.wq, t.armed)) = some (1#16, false) := by decide
theorem test_X6 : (nextOf (stepEvent (.internal (.syncW2R .tx 2))
    { ext with txf := { chain 2 4 2 0 0 0 0 with drain := true, target := 4 } })).map
      (fun t => (t.txf.wqb, t.txf.rhead, t.txf.drain, t.armed)) = some (2#16, 2#16, true, true) := by decide
theorem test_X7 : (nextOf (stepEvent (.internal (.syncW2R .tx 4))
    { ext with txf := { chain 2 4 4 0 2 0 2 with drain := true, target := 4 } })).map
      (fun t => (t.txf.wqb, t.txf.rhead, t.txf.drain)) = some (4#16, 4#16, false) := by decide
theorem test_X8 : (nextOf (stepEvent (.internal (.syncW2R .tx 6))
    { ext with txf := { chain 2 6 6 2 2 2 2 with drain := true, target := 4 } })).map
      (fun t => (t.txf.wqb, t.txf.rhead, t.txf.drain, t.txf.rcount)) = some (6#16, 4#16, false, 2) := by decide
theorem test_X9 : (Fifo.flushReq (chain 2 4 4 0 0 0 4)).flMark = 4 ∧ (Fifo.flushReq (chain 2 4 4 0 0 0 4)).flReq = true := by
  decide
theorem test_X10 : (Fifo.flushReq { chain 2 6 4 2 2 2 4 with flReq := true, flMark := 4 }).flNext = 6 ∧
    (Fifo.flushReq { chain 2 6 4 2 2 2 4 with flReq := true, flMark := 4 }).flMark = 4 := by decide
theorem test_X11 : (nextOf (stepEvent (.internal (.capture .tx)) flushing)).map
    (fun t => (t.txf.target, t.txf.flAck, t.txf.rhead, t.txf.drain, t.armed)) =
      some (4#16, true, 4#16, false, true) := by decide
theorem test_X12 : (nextOf (stepEvent (.internal (.ackSync .tx)) { ext with
    txf := { chain 2 6 4 4 4 4 4 with flReq := true, flAck := true, fr := true, flMark := 4, flPend := true,
                                      flNext := 6 } })).map
      (fun t => (t.txf.fa, t.txf.flMark, t.txf.flReq, t.txf.flPend)) = some (true, 6#16, false, false) := by decide
theorem test_X13 : (nextOf (stepEvent (.internal (.ackSync .tx)) { ext with
    txf := { chain 2 5 4 4 4 4 4 with flReq := true, flAck := true, fr := true, flMark := 4 } })).map
      (fun t => (t.txf.fa, t.txf.lim)) = some (true, 5#16) := by decide
theorem test_X14 : (nextOf (stepEvent (.internal .errRxSync) { ext with errRx := true })).map
    (fun t => (t.errRxQ, t.err)) = some (true, true) := by decide
theorem test_X15 : (nextOf (stepEvent (.internal .ecReqSync) { ext with ecReq := true, errRx := true })).map
    (fun t => (t.ecReqQ, t.errRx, t.ecAck)) = some (true, false, true) := by decide
theorem test_X16 : (nextOf (stepEvent (.internal .ecAckSync)
    { ext with ecReq := true, ecReqQ := true, ecAck := true, ecPend := true })).map
      (fun t => (t.ecAckQ, t.ecReq, t.ecPend)) = some (true, false, false) := by decide
theorem test_R_pub : (nextOf (stepEvent (.internal (.rPub .tx)) { ext with txf := chain 2 4 4 0 4 0 4 })).map
    (fun t => t.txf.rpub) = some 1#16 := by decide

/-! ### Interrupt, peripheral, reset, the step (sections 2.5, 2.6) -/

theorem test_E1 : ext.irq = false := by decide
theorem test_E4 : (nextOf (stepEvent .periphTxc { ext with periph := { Periph.reset with txe := false, tdr := 0x41 } })).map
    (fun t => (t.periph.lineOut, t.periph.txe)) = some ([0x41#8], true) := by decide
theorem test_E5 : (nextOf (stepEvent (.periphRxa 0x10) ext)).map (fun t => (t.periph.rdr, t.periph.rxne, t.irq)) =
    some (0x10#8, true, true) := by decide
theorem test_E6 : (nextOf (stepEvent (.periphRxa 0x20)
    { ext with periph := { Periph.reset with rxne := true, rdr := 0x10, lineIn := [0x10] } })).map
      (fun t => (t.periph.ore, t.periph.rdr, t.periph.lineIn)) = some (true, 0x10#8, [0x10#8, 0x20#8]) := by decide
theorem test_E7 : (nextOf (stepEvent (.periphRxa 0x20) { ext with
    ovrPolicy := .takeNew,
    periph := { Periph.reset with rxne := true, rdr := 0x10, lineIn := [0x10] } })).map
      (fun t => (t.periph.ore, t.periph.rdr)) = some (true, 0x20#8) := by decide
theorem test_I1 : (nextOf (stepEvent (.resetPins false false) (both .auto))).map
    (fun t => (t.txf.wptr, t.armed, t.err, t.irq)) = some (0#16, false, false, false) := by decide
theorem test_I3 : stepEvent (.appCmd 0x141) { ext with rstAN := false, rstSN := false } =
    .next { ext with rstAN := false, rstSN := false } := rfl
theorem test_partial_reset : stepEvent (.resetPins false true) ext = .refused .partialReset := rfl
theorem test_ser_ignored_in_auto : stepEvent (.serCmd 0x200) auto = .next auto := rfl
theorem test_dispatch : (nextOf (stepEvent .dispatch (both .auto))).map
    (fun t => (t.sRsp.pack, t.strobes.pWr, t.strobes.pRd)) = some (0x35541#19, some 0x41#8, true) := by decide
theorem test_step_fetch_app : (nextOf (step (State.reset.withFetchWord 16 0x0141))).map
    (fun t => (t.aRsp.pack, t.txf.wptr, t.pending)) = some (0x10000#19, 1#16, []) := by decide
theorem test_step_fetch_ser : (nextOf (step (State.reset.withFetchWord 16 0x1310))).map
    (fun t => (t.sRsp.pack, t.rxf.wptr)) = some (0x10000#19, 1#16) := by decide

/-! ### Witnesses: states and operands that meet the hypotheses of a statement, clause by clause -/

theorem ext_inv : ext.Inv := ⟨by decide, by decide, by decide, by decide, by decide⟩
theorem auto_inv : auto.Inv := ⟨by decide, by decide, by decide, by decide, by decide⟩
theorem full_inv : full.Inv := ⟨by decide, by decide, by decide, by decide, by decide⟩
theorem flushing_inv : flushing.Inv := ⟨by decide, by decide, by decide, by decide, by decide⟩
theorem visible_inv : (visible .auto).Inv := ⟨by decide, by decide, by decide, by decide, by decide⟩
theorem both_inv : (both .auto).Inv := ⟨by decide, by decide, by decide, by decide, by decide⟩
theorem moving_inv : (moving .external).Inv := ⟨by decide, by decide, by decide, by decide, by decide⟩
theorem rxFull_inv : rxFull.Inv := ⟨by decide, by decide, by decide, by decide, by decide⟩

/-- O1: the hypothesis, on each port. -/
theorem witness_EncodeDecodeAgree : (Instr.aTxEnq 0xFF).wellFormedOn .app = true ∧
    (Instr.sReservedF 0).wellFormedOn .ser = true := by decide

/-- O4: a command with an unused byte on each port, next to the two that use it. -/
theorem witness_UnusedByteHasNoEffect :
    (¬ (Port.app = .app ∧ (2 : BitVec 4) = 1) ∧ ¬ (Port.app = .ser ∧ (2 : BitVec 4) = 3)) ∧
    (¬ (Port.ser = .app ∧ (1 : BitVec 4) = 1) ∧ ¬ (Port.ser = .ser ∧ (1 : BitVec 4) = 3)) := by decide

/-- O5: the least and the greatest reserved code of each port. -/
theorem witness_ReservedCodesOnlySetIll :
    8 ≤ (opField 0x800#12).toNat ∧ 8 ≤ (opField 0xFFF#12).toNat ∧ 6 ≤ (opField 0x600#12).toNat ∧
    6 ≤ (opField 0xFFF#12).toNat ∧ ¬ 8 ≤ (opField 0x7FF#12).toNat ∧ ¬ 6 ≤ (opField 0x5FF#12).toNat := by decide

/-- O7: the greatest pointer of the narrowest and of the widest FIFO. -/
theorem witness_GrayCodeInverseAndOneBitChange :
    inRange (0 : Fin 16) 1 = true ∧ inRange (2 : Fin 16) 7 = true ∧ inRange (15 : Fin 16) 0xFFFF = true ∧
    gray (ptrSucc (2 : Fin 16) 7) ^^^ gray 7 = BitVec.twoPow 16 2 := by decide

/-- O8: pointers across the wrap, and the least and greatest number of increments. -/
theorem witness_DistanceCountsIncrements :
    inRange (2 : Fin 16) 7 = true ∧ inRange (2 : Fin 16) 0 = true ∧ dist (2 : Fin 16) 0 7 = 1 ∧
    dist (2 : Fin 16) (ptrAdd (2 : Fin 16) 7 0) 7 = 0 ∧ dist (2 : Fin 16) (ptrAdd (2 : Fin 16) 7 7) 7 = 7 := by decide

/-- O10: a state for each of the three clauses. -/
theorem witness_TxEnqueueResult : ext.txf.wfull = false ∧ (full.txf.wfull = true ∧ full.txf.flReq = full.txf.fa) ∧
    (flushing.txf.wfull = true ∧ flushing.txf.flReq ≠ flushing.txf.fa) := by decide

/-- O11: a state for each of the three clauses. -/
theorem witness_RxEnqueueResult : ext.rxf.wfull = false ∧ (rxFull.rxf.wfull = true ∧ rxFull.rxf.flReq = rxFull.rxf.fa) ∧
    (Fifo.wfull { rxFull.rxf with flReq := true } = true ∧ true ≠ rxFull.rxf.fa) := by decide

/-- O12: an empty and a non-empty view. -/
theorem witness_RxDequeueResult : ext.rxf.rcount = 0 ∧ rxFull.rxf.rcount ≠ 0 := by decide

/-- O13: an empty and a non-empty view. -/
theorem witness_TxDequeueResult : ext.txf.rcount = 0 ∧ full.txf.rcount ≠ 0 := by decide

/-- O15: a state of the invariant whose counts are the capacity. -/
theorem witness_CountsFitTheirField : full.Inv ∧ full.txf.wcount = full.txf.capacity ∧
    full.txf.rcount = full.txf.capacity := ⟨full_inv, by decide, by decide⟩

/-- O18: no clear outstanding, and one outstanding. -/
theorem witness_ErrorClearRequest : ext.ecReq = ext.ecAckQ ∧
    State.ecReq { ext with ecReq := true } ≠ State.ecAckQ { ext with ecReq := true } := by decide

/-- O21: publishing enabled, held by a flush, and with nothing to publish. -/
theorem witness_PublishSteps :
    ((moving .external).inReset = false ∧ (moving .external).txf.wpub ≠ (moving .external).txf.lim ∧
      (moving .external).txf.rpub ≠ (moving .external).txf.rhead) ∧
    (flushing.inReset = false ∧ flushing.txf.flReq ≠ flushing.txf.fa ∧ flushing.txf.wpub = flushing.txf.flMark ∧
      flushing.txf.rpub = flushing.txf.rhead) := by decide

/-- O22: the least and the greatest admitted draw, one beyond each end, and a view that has caught up. -/
theorem witness_SynchroniserDraws :
    (∀ v ∈ [1, 2, 3], (moving .external).internalEnabled (.syncW2R .tx v) = decide (v = 3)) ∧
    (moving .external).internalEnabled (.syncR2W .tx 0) = false ∧
    (moving .external).internalEnabled (.syncR2W .tx 1) = true ∧
    (moving .external).internalEnabled (.syncR2W .tx 2) = false ∧
    full.txf.wqb = full.txf.wpub ∧ full.txf.rqb = full.txf.rpub ∧ full.inReset = false ∧ (moving .external).Inv :=
  ⟨by decide, by decide, by decide, by decide, by decide, by decide, by decide, moving_inv⟩

/-- O24: `CAPTURE` with bytes to skip and with none, `ACK_SYNC` with and without a remembered flush, and both disabled. -/
theorem witness_FlushHandshakeSteps : flushing.inReset = false ∧
    (flushing.txf.fr ≠ flushing.txf.flReq ∧ flushing.txf.flMark ≠ flushing.txf.rhead) ∧
    (flushing.txf.fa = flushing.txf.flAck) ∧ (full.txf.fr = full.txf.flReq) ∧
    (∃ t, stepEvent (.internal (.capture .tx)) flushing = .next t ∧ t.txf.fa ≠ t.txf.flAck ∧ t.txf.flPend = false) ∧
    (∃ t, stepEvent (.internal (.capture .tx)) flushing2 = .next t ∧ t.txf.fa ≠ t.txf.flAck ∧
      t.txf.flAck = t.txf.flReq ∧ t.txf.flPend = true) ∧
    (∃ t u v, stepEvent (.internal (.capture .tx)) flushing2 = .next t ∧
      stepEvent (.internal (.ackSync .tx)) t = .next u ∧ u.txf.fr ≠ u.txf.flReq ∧ u.txf.flMark = u.txf.rhead ∧
      stepEvent (.internal (.capture .tx)) u = .next v ∧ v.txf.drain = false) :=
  ⟨by decide, by decide, by decide, by decide, ⟨_, rfl, by decide, by decide⟩,
    ⟨_, rfl, by decide, by decide, by decide⟩, ⟨_, _, _, rfl, rfl, by decide, by decide, rfl, by decide⟩⟩

/-- O25: a state for each clause. -/
theorem witness_ErrorHandshakeSteps : ext.inReset = false ∧ ext.ecReqQ = ext.ecReq ∧ ext.ecAckQ = ext.ecAck ∧
    (∃ t, exec (.aErrClr 0) ext = .next t ∧ t.ecReqQ ≠ t.ecReq ∧
      ∃ u, stepEvent (.internal .ecReqSync) t = .next u ∧ u.ecAckQ ≠ u.ecAck ∧ ¬ (u.ecPend = true)) ∧
    (∃ t u v, exec (.aErrClr 0) ext = .next t ∧ exec (.aErrClr 0) t = .next u ∧
      stepEvent (.internal .ecReqSync) u = .next v ∧ v.ecAckQ ≠ v.ecAck ∧ v.ecAck = v.ecReq ∧ v.ecPend = true) :=
  ⟨by decide, by decide, by decide, ⟨_, rfl, by decide, _, rfl, by decide, by decide⟩,
    ⟨_, _, _, rfl, rfl, rfl, by decide, by decide, by decide⟩⟩

/-- O26: a step that moves each published pointer. -/
theorem witness_PublishedPointersCountByOne : (moving .external).Inv ∧ isResetEvent (.internal (.wPub .tx)) = false ∧
    (∃ t, stepEvent (.internal (.wPub .tx)) (moving .external) = .next t ∧ t.txf.wpub ≠ (moving .external).txf.wpub) ∧
    (∃ t, stepEvent (.internal (.rPub .tx)) (moving .external) = .next t ∧ t.txf.rpub ≠ (moving .external).txf.rpub) :=
  ⟨moving_inv, by decide, ⟨_, rfl, by decide⟩, ⟨_, rfl, by decide⟩⟩

/-- O27: events that set and that clear a latch. -/
theorem witness_ErrorLatchesSticky : isResetEvent (.appCmd 0x145) = false ∧
    (∃ t, stepEvent (.appCmd 0x145) full = .next t ∧ t.errTx = true) ∧
    (∃ t, stepEvent (.appCmd 0x700) { full with errTx := true } = .next t ∧ t.errTx = false) ∧
    (∃ t, stepEvent (.serCmd 0x330) rxFull = .next t ∧ t.errRx = true) ∧
    (∃ t, stepEvent (.internal .errRxSync) { ext with errRx := true } = .next t ∧ t.errRxQ = true) ∧
    (∃ t, stepEvent (.internal .ecReqSync) { ext with errRx := true, ecReq := true } = .next t ∧ t.errRx = false) :=
  ⟨by decide, ⟨_, rfl, by decide⟩, ⟨_, rfl, by decide⟩, ⟨_, rfl, by decide⟩, ⟨_, rfl, by decide⟩, ⟨_, rfl, by decide⟩⟩

/-- O28: each row of the table. -/
theorem witness_ArmedStateMachine : (moving .auto).inReset = false ∧
    (moving .auto).internalEnabled (.syncW2R .tx 3) = true ∧ (moving .auto).armed = false ∧
    flushing.internalEnabled (.capture .tx) = true ∧
    (asksFor .tx (.serCmd 0x200) ext = true ∧ ext.txf.rcount = 0) ∧
    (asksFor .tx .dispatch { auto with armed := true } = true) ∧
    (∃ t, stepEvent .dispatch { auto with armed := true } = .next t ∧ t.armed = false) :=
  ⟨by decide, by decide, by decide, by decide, by decide, by decide, ⟨_, rfl, by decide⟩⟩

/-- O29: AUTO with and without an interrupt, and EXTERNAL. -/
theorem witness_InterruptConditionDispatches :
    ((visible .auto).inReset = false ∧ (visible .auto).serMode = .auto ∧ (visible .auto).outputs.irq = true) ∧
    (auto.serMode = .auto ∧ auto.outputs.irq = false) ∧ ext.serMode = .external := by decide

/-- O30: a state for each clause. -/
theorem witness_PeripheralSteps : ext.inReset = false ∧ ext.periph.txe = true ∧ ext.periph.rxne = false ∧
    (∃ t, stepEvent .dispatch (both .auto) = .next t ∧ t.periph.txe = false) ∧
    ((both .auto).periph.rxne = true ∧ (both .auto).ovrPolicy = .keepOld) ∧
    (State.ovrPolicy { both .auto with ovrPolicy := .takeNew } = .takeNew) :=
  ⟨by decide, by decide, by decide, ⟨_, rfl, by decide⟩, by decide, by decide⟩

/-- O31: a step after which every strobe is up. -/
theorem witness_StrobesOnlyInIsr : ∃ t, stepEvent .dispatch (both .auto).strobesDown = .next t ∧
    t.strobes ≠ Strobes.none ∧ t.strobes.pWr = some 0x41 ∧ t.strobes.pClrRxne = true :=
  ⟨_, rfl, by decide, by decide, by decide⟩

/-- O32: a command on each port, the dispatcher, an idle cycle, and a step that is none of them. -/
theorem witness_ResponsesWrittenOnlyByCommands :
    (∃ t, stepEvent (.appCmd 0x200) ext = .next t ∧ t.aRspValid = true) ∧
    (ext.inReset = false ∧ ext.serMode = .external ∧ ∃ t, stepEvent (.serCmd 0x400) ext = .next t ∧ t.sRspValid = true) ∧
    ((both .auto).dispatchEnabled = true ∧ ∃ t, stepEvent .dispatch (both .auto) = .next t ∧ t.sRspValid = true) ∧
    (∃ t, stepEvent .appIdle flushing = .next t ∧ t.aRspValid = false) ∧
    (isResetEvent .periphTxc = false ∧ ∃ t, stepEvent .periphTxc flushing = .next t ∧ t.aRspValid = true) :=
  ⟨⟨_, rfl, by decide⟩, ⟨by decide, by decide, _, rfl, by decide⟩, ⟨by decide, _, rfl, by decide⟩, ⟨_, rfl, by decide⟩,
    ⟨by decide, _, rfl, by decide⟩⟩

/-- O34: the three pairs of levels that hold the block, and an event that is ignored meanwhile. -/
theorem witness_JointResetHoldsAndRestarts : (false && false) = false ∧ (true && false) = false ∧
    (false && true) = false ∧ isResetEvent (.appCmd 0x141) = false := by decide

/-- O35: a running block. -/
theorem witness_PartialResetRefused : ext.rstAN = true ∧ ext.rstSN = true := by decide

/-- O37: the least and greatest capacities, and a transition. -/
theorem witness_CapacityIsAFixedPowerOfTwo :
    widthOfCapacity 1 = some 0 ∧ widthOfCapacity 32768 = some 15 ∧ widthOfCapacity 65536 = none ∧
    (∃ s, boot 32768 1 .auto .keepOld 2 = .ok s) ∧ (∃ t, stepEvent (.appCmd 0x141) ext = .next t) :=
  ⟨rfl, rfl, rfl, ⟨_, rfl⟩, ⟨_, rfl⟩⟩

/-- O39: a state of the invariant in the middle of a flush, and its next state. -/
theorem witness_StepKeepsInvariant : State.Inv { flushing with pending := [.internal (.capture .tx)] } ∧
    ∃ t, step { flushing with pending := [.internal (.capture .tx)] } = .next t :=
  ⟨⟨by decide, by decide, by decide, by decide, by decide⟩, ⟨_, rfl⟩⟩

/-- O41: a full window but for one slot, with its first and last position. -/
theorem witness_EnqueueNeverOverwrites : (chain 2 3 3 0 0 0 3).Inv ∧ (chain 2 3 3 0 0 0 3).wfull = false ∧
    0 < dist (2 : Fin 16) 3 0 ∧ 2 < dist (2 : Fin 16) 3 0 := by decide

/-- O42: a byte accepted, and one dropped. -/
theorem witness_StorageWrittenOnlyByEnqueue : Memory.wf (ext.fifo .tx).mem ∧ isResetEvent (.appCmd 0x141) = false ∧
    acceptedBy .tx (.appCmd 0x141) ext = [0x41] ∧ acceptedBy .tx (.appCmd 0x141) full = [] ∧
    (∃ t, stepEvent (.appCmd 0x141) ext = .next t) :=
  ⟨by decide, by decide, by decide, by decide, ⟨_, rfl⟩⟩

/-- O43: a FIFO whose two counts differ from the bytes in it. -/
theorem witness_LagPrinciple : (moving .external).txf.Inv ∧ (moving .external).txf.rcount = 0 ∧
    (moving .external).txf.contents.length = 2 ∧ (moving .external).txf.wcount = 4 := by decide

/-- O44: a step that moves a view. -/
theorem witness_ViewsMoveForward : (moving .external).Inv ∧
    (∃ t, stepEvent (.internal (.syncW2R .tx 3)) (moving .external) = .next t ∧ t.txf.wqb = 3) ∧
    (∃ t, stepEvent (.internal (.syncR2W .tx 1)) (moving .external) = .next t ∧ t.txf.rqb = 1) :=
  ⟨moving_inv, ⟨_, rfl, by decide⟩, ⟨_, rfl, by decide⟩⟩

/-- O45: a step of each agent that changes its own registers. -/
theorem witness_EachDomainWritesItsOwn :
    (agentOf (.appCmd 0x141) = .app ∧ ∃ t, stepEvent (.appCmd 0x141) ext = .next t ∧ t.appOwned ≠ ext.appOwned) ∧
    (agentOf (.serCmd 0x310) = .ser ∧ ∃ t, stepEvent (.serCmd 0x310) ext = .next t ∧ t.serOwned ≠ ext.serOwned) ∧
    (agentOf (.periphRxa 1) = .peripheral ∧ ∃ t, stepEvent (.periphRxa 1) ext = .next t ∧ t.periph ≠ ext.periph) :=
  ⟨⟨by decide, _, rfl, by decide⟩, ⟨by decide, _, rfl, by decide⟩, ⟨by decide, _, rfl, by decide⟩⟩

/-- O46: two states that a domain cannot tell apart, and that differ in the other domain. -/
theorem witness_CommandsReadTheirOwnDomain :
    ((Instr.aTxEnq 0x41).port = .app ∧ full.appOwned = State.appOwned { full with armed := false, errRx := true } ∧
      full.rxf.mem = ext.rxf.mem ∧ full.serOwned ≠ State.serOwned { full with armed := false, errRx := true }) ∧
    ((Instr.sIsr 0).port = .ser ∧ full.serOwned = State.serOwned { full with errTx := true } ∧
      full.appOwned ≠ State.appOwned { full with errTx := true }) := by decide

/-- Overflow a full TXF, let the flush discard what is left of it, and enqueue again (program P6 shortened). -/
def flushRun : List Event :=
  [.appCmd 0x145, .serCmd 0x200, .internal (.capture .tx), .internal (.ackSync .tx)]

/-- O47: a run that takes one byte and flushes three, and one without a flush that takes one and puts one in. -/
theorem witness_StreamsAreSubsequences :
    (full.Inv ∧ full.inReset = false ∧ (∀ e ∈ flushRun, isResetEvent e = false) ∧
      exitsIn .tx flushRun full = [.taken 0x41, .discarded 0x42, .discarded 0x43, .discarded 0x44] ∧
      (∃ t, runEvents flushRun full = .next t ∧ t.txf.contents = [])) ∧
    ((visible .external).Inv ∧ (visible .external).inReset = false ∧ (visible .external).txf.drain = false ∧
      flushesIn .tx [.appCmd 0x142, .serCmd 0x200] (visible .external) = false ∧
      takenIn .tx [.appCmd 0x142, .serCmd 0x200] (visible .external) = [0x41] ∧
      (∃ t, runEvents [.appCmd 0x142, .serCmd 0x200] (visible .external) = .next t ∧ t.txf.contents = [0x42])) :=
  ⟨⟨full_inv, by decide, by decide, by decide, _, rfl, by decide⟩,
    ⟨by decide, by decide, by decide, by decide, by decide⟩, by decide, by decide, by decide, by decide,
    _, rfl, by decide⟩

/-- O48: an unsettled state of the invariant. -/
theorem witness_SettleReachesSettled : flushing.Inv ∧ flushing.settled = false := ⟨flushing_inv, by decide⟩

/-- O49: an enabled step that is not the one the settle takes first. -/
theorem witness_SettleOrderIndependent : (moving .external).Inv ∧
    InternalStep.rPub .tx ∈ (moving .external).catchUpSteps ∧
    (moving .external).internalEnabled (.rPub .tx) = true ∧ (moving .external).internalEnabled (.wPub .tx) = true :=
  ⟨moving_inv, by decide, by decide, by decide⟩

/-- O50: a settled full state, where an enqueue flushes. -/
theorem witness_SettledCommandsRefineAbs : full.Inv ∧ full.inReset = false ∧ full.settled = true :=
  ⟨full_inv, by decide, by decide⟩

/-- O51: a settled armed state in AUTO mode with a byte to send. -/
theorem witness_TransmitDrainsInOrder : (visible .auto).Inv ∧ (visible .auto).inReset = false ∧
    (visible .auto).settled = true ∧ (visible .auto).serMode = .auto ∧ (visible .auto).armed = true ∧
    (visible .auto).periph.txe = true ∧ (visible .auto).periph.rxne = false ∧ (visible .auto).txf.contents = [0x41] :=
  ⟨visible_inv, by decide, by decide, by decide, by decide, by decide, by decide, by decide⟩

/-- O52: AUTO mode with room for a byte. -/
theorem witness_ReceivedByteIsQueued : auto.Inv ∧ auto.inReset = false ∧ auto.serMode = .auto ∧
    auto.periph.rxne = false ∧ auto.rxf.wfull = false :=
  ⟨auto_inv, by decide, by decide, by decide, by decide⟩

/-- O53: a run of the other agents only. -/
theorem witness_NotFullSurvivesOtherDomain : (visible .auto).inReset = false ∧ (visible .auto).txf.wfull = false ∧
    (∀ e ∈ [Event.dispatch, .periphTxc, .internal (.rPub .tx)], agentOf e = .ser ∨ agentOf e = .peripheral) ∧
    (∃ t, runEvents [.dispatch, .periphTxc, .internal (.rPub .tx)] (visible .auto) = .next t ∧ t.txf.rpub = 1) :=
  ⟨by decide, by decide, by decide, ⟨_, rfl, by decide⟩⟩

/-- O54: a visible byte and an empty data register. -/
theorem witness_VisibleByteIsSent : (visible .auto).Inv ∧ (visible .auto).inReset = false ∧
    (visible .auto).serMode = .auto ∧ (visible .auto).periph.txe = true ∧ (visible .auto).txf.rcount ≠ 0 :=
  ⟨visible_inv, by decide, by decide, by decide, by decide⟩

/-- A schedule that takes the four synchroniser steps of the pointers once and then idles. -/
def syncThenIdle : Nat → Event
  | 0 => .internal (.syncR2W .tx 1)
  | 1 => .internal (.syncW2R .tx 3)
  | 2 => .internal (.syncR2W .rx 1)
  | 3 => .internal (.syncW2R .rx 2)
  | _ + 4 => .appIdle

/-- `moving` after TXF's two synchroniser steps. -/
def seenTx : State := ((moving .external).internalStep (.syncR2W .tx 1)).internalStep (.syncW2R .tx 3)

/-- Its run from `moving`. -/
def syncThenIdleRun : Nat → State
  | 0 => moving .external
  | 1 => (moving .external).internalStep (.syncR2W .tx 1)
  | 2 => seenTx
  | 3 => seenTx.internalStep (.syncR2W .rx 1)
  | _ + 4 => (seenTx.internalStep (.syncR2W .rx 1)).internalStep (.syncW2R .rx 2)

theorem syncThenIdle_isRun : IsRun syncThenIdleRun syncThenIdle := fun n =>
  match n with
  | 0 => rfl
  | 1 => rfl
  | 2 => rfl
  | 3 => rfl
  | _ + 4 => rfl

theorem syncThenIdle_published (f : FifoId) (m : Nat) :
    ((syncThenIdleRun m).fifo f).rpub = ((syncThenIdleRun 0).fifo f).rpub ∧
      ((syncThenIdleRun m).fifo f).wpub = ((syncThenIdleRun 0).fifo f).wpub := by
  cases f <;>
    exact match m with
    | 0 => ⟨rfl, rfl⟩
    | 1 => ⟨rfl, rfl⟩
    | 2 => ⟨rfl, rfl⟩
    | 3 => ⟨rfl, rfl⟩
    | _ + 4 => ⟨rfl, rfl⟩

theorem syncThenIdle_caughtUp (f : FifoId) :
    ((syncThenIdleRun 4).fifo f).rqb = ((syncThenIdleRun 4).fifo f).rpub ∧
      ((syncThenIdleRun 4).fifo f).wqb = ((syncThenIdleRun 4).fifo f).wpub := by
  cases f <;> decide

/-- O55: a fair run whose four views start behind, and whose published pointers do not move. -/
theorem witness_ViewsCatchUpUnderFairness (f : FifoId) :
    (syncThenIdleRun 0).Inv ∧ IsRun syncThenIdleRun syncThenIdle ∧
    WeaklyFair syncThenIdleRun syncThenIdle (.syncR2W f) ∧ WeaklyFair syncThenIdleRun syncThenIdle (.syncW2R f) ∧
    (∀ m, 0 ≤ m → ((syncThenIdleRun m).fifo f).rpub = ((syncThenIdleRun 0).fifo f).rpub ∧
      ((syncThenIdleRun m).fifo f).wpub = ((syncThenIdleRun 0).fifo f).wpub) ∧
    ((syncThenIdleRun 0).fifo f).rqb ≠ ((syncThenIdleRun 0).fifo f).rpub ∧
    ((syncThenIdleRun 0).fifo f).wqb ≠ ((syncThenIdleRun 0).fifo f).wpub := by
  refine ⟨moving_inv, syncThenIdle_isRun, fun n => ⟨n + 4, by omega, .inl ?_⟩, fun n => ⟨n + 4, by omega, .inl ?_⟩,
    fun m _ => syncThenIdle_published f m, by cases f <;> decide, by cases f <;> decide⟩
  · rintro ⟨v, hv⟩
    have h : ((syncThenIdleRun (n + 4)).fifo f).rqb = ((syncThenIdleRun (n + 4)).fifo f).rpub :=
      (syncThenIdle_caughtUp f).1
    simp [State.internalEnabled, Fifo.syncR2WEnabled, h] at hv
  · rintro ⟨v, hv⟩
    have h : ((syncThenIdleRun (n + 4)).fifo f).wqb = ((syncThenIdleRun (n + 4)).fifo f).wpub :=
      (syncThenIdle_caughtUp f).2
    simp [State.internalEnabled, Fifo.syncW2REnabled, h] at hv

/-- O56: a text that exactly fills the producer's view, with a byte after its NUL. -/
theorem witness_SendStrAppendsText : ext.Inv ∧ ext.inReset = false ∧
    ext.txf.wcount + (([0x41, 0x42, 0x43, 0x44, 0x00, 0x45] : List Byte).takeWhile fun b => b != 0).length =
      ext.txf.capacity := ⟨ext_inv, by decide, by decide⟩

/-- O57: a word presented on each port. -/
theorem witness_StepRunsPresentedCommand : ext.inReset = false ∧ ext.serMode = .external ∧
    State.pending { ext with pending := [.appCmd 0x141] } = [.appCmd 0x141] ∧
    State.pending { ext with pending := [.serCmd 0x310] } = [.serCmd 0x310] := by decide

/-- A step of `flushing` that captures the flush. -/
def capturing : State := { flushing with pending := [.internal (.capture .tx)] }

/-- The history of TXF in `capturing`: four bytes accepted and published, the mark after the last. -/
def capturingHistory : History :=
  { accepted := [0x41, 0x42, 0x43, 0x44], wpub := 4, rqb := 0, rhead := 0, rpub := 0, wqb := 4, mark := 4, next := 0,
    target := 0 }

/-- O59: a state that follows a history in the middle of a flush, its next state, and a mark not passed. -/
theorem witness_StepKeepsHistory : capturing.Inv ∧ (capturing.fifo .tx).Follows capturingHistory ∧
    (∃ t, step capturing = .next t ∧ t.txf.rhead = 4) ∧ isResetEvent capturing.nextEvent = false ∧
    capturing.txf.flushOutstanding = true ∧ capturingHistory.rqb ≤ capturingHistory.mark ∧
    (∃ t, step { flushing with pending := [.resetPins false false] } = .next t ∧
      isResetEvent (State.nextEvent { flushing with pending := [.resetPins false false] }) = true) := by
  refine ⟨⟨by decide, by decide, by decide, by decide, by decide⟩, ?_, ⟨_, rfl, by decide⟩, by decide, by decide,
    by decide, ⟨_, rfl, by decide⟩⟩
  refine ⟨by decide, by decide, by decide, by decide, by decide, ?_, fun h => absurd h (by decide)⟩
  intro p _ hp
  exact (by decide : ∀ q < 4, capturingHistory.accepted[q]? =
    some ((capturing.fifo .tx).mem.read (q % (capturing.fifo .tx).capacity))) p hp

/-- O60: a step that discards four bytes, and steps that take and that accept one. -/
theorem witness_EachStepAccountsForEveryByte : capturing.Inv ∧ isResetEvent capturing.nextEvent = false ∧
    discardedBy .tx capturing.nextEvent capturing = [0x41, 0x42, 0x43, 0x44] ∧ (∃ t, step capturing = .next t) ∧
    takenBy .tx (.serCmd 0x200) (visible .external) = [0x41] ∧ acceptedBy .tx (.appCmd 0x142) (visible .external) = [0x42] :=
  ⟨⟨by decide, by decide, by decide, by decide, by decide⟩, by decide, by decide, ⟨_, rfl⟩, by decide, by decide⟩

/-- The end state of program P6 (95_test_vectors.md) with the mark of its one flush, which step 2 sets to 4 and no later
step writes: the clause of R49 item 2 on `fl_mark` does not hold there in the order of R15 (notes/assumptions/14.md). -/
theorem test_P6_mark : ¬ Fifo.MarkInOrder { chain 2 5 5 5 5 5 5 with
    flReq := true, flMark := 4, fa := true, fr := true, flAck := true, target := 4 } := by decide

/-- The same with no flush ever requested: one byte enqueued, taken and seen as taken, and `fl_mark` at its reset value. -/
theorem test_unflushed_mark : ¬ Fifo.MarkInOrder (chain 2 1 1 1 1 1 1) := by decide

/-! ### The abstract model: the peripheral after an interrupt entry (20_memory.md R96) -/

theorem test_abs_interrupt : ((both .auto).abs.onInterrupt (both .auto).periph).2.2 =
    { txe := false, tdr := 0x41, rxne := false, rdr := 0x55, ore := false, lineOut := [], lineIn := [] } := by decide
theorem test_abs_interrupt_empty : (auto.abs.onInterrupt auto.periph).2.2 = auto.periph := by decide

end Sys2Proof.Tests
end

/-! SUPPORT. The statements of 00_scope.md: what fixes the configuration, gray code, and occupancies. -/

namespace Sys2Proof.Machine

/-! ### Configuration (00_scope.md R8 to R12): what each operation leaves of it -/

@[simp] theorem Fifo.flushReq_aw (f : Fifo) : f.flushReq.aw = f.aw := by
  rcases f.flushReq_cases with ⟨-, e⟩ | ⟨-, e⟩ <;> rw [e]

@[simp] theorem Fifo.advance_aw (f : Fifo) : f.advance.aw = f.aw := by
  rcases f.advance_cases with ⟨-, e⟩ | ⟨-, e⟩ <;> rw [e]

@[simp] theorem Fifo.syncW2R_aw (f : Fifo) (v : Nat) : (f.syncW2R v).aw = f.aw := by
  rcases f.syncW2R_cases v with ⟨-, e⟩ | ⟨-, e⟩ <;> simp [e]

@[simp] theorem Fifo.capture_aw (f : Fifo) : f.capture.aw = f.aw := by
  rcases f.capture_cases with ⟨-, e⟩ | ⟨-, e⟩ <;> simp [e]

@[simp] theorem Fifo.ackSync_aw (f : Fifo) : f.ackSync.aw = f.aw := by
  rcases f.ackSync_cases with ⟨-, -, e⟩ | ⟨-, e⟩ <;> rw [e]

/-- Two states have one configuration exactly where the five parameters agree. -/
theorem State.config_eq_iff {s t : State} :
    t.config = s.config ↔ t.txf.aw = s.txf.aw ∧ t.rxf.aw = s.rxf.aw ∧ t.serMode = s.serMode ∧
      t.ovrPolicy = s.ovrPolicy ∧ t.syncStages = s.syncStages := by
  simp [State.config]

@[simp] theorem State.rspA_config (s : State) (v : Count) (f0 f1 ill : Bool) :
    (s.rspA v f0 f1 ill).config = s.config := rfl

@[simp] theorem State.rspS_config (s : State) (v : Count) (f0 f1 ill : Bool) :
    (s.rspS v f0 f1 ill).config = s.config := rfl

/-- A FIFO may be replaced by one of the same address width. -/
theorem State.setFifo_config {s : State} {f : FifoId} {x : Fifo} (h : x.aw = (s.fifo f).aw) :
    (s.setFifo f x).config = s.config := by
  cases f <;> simp_all [State.config_eq_iff]

@[simp] theorem State.armIfTx_config (s : State) (f : FifoId) : (s.armIfTx f).config = s.config := by
  cases f <;> rfl

@[simp] theorem State.requestErrClear_config (s : State) : s.requestErrClear.config = s.config := by
  rcases s.requestErrClear_cases with ⟨-, e⟩ | ⟨-, e⟩ <;> rw [e] <;> rfl

@[simp] theorem State.txEnq_config (s : State) (b : Byte) : (s.txEnq b).2.config = s.config := by
  rcases s.txEnq_cases b with ⟨-, e⟩ | ⟨-, e⟩ <;> simp [e, State.config_eq_iff]

@[simp] theorem State.rxEnq_config (s : State) (b : Byte) : (s.rxEnq b).2.config = s.config := by
  rcases s.rxEnq_cases b with ⟨-, e⟩ | ⟨-, e⟩ <;> simp [e, State.config_eq_iff]

@[simp] theorem State.txDeq_config (s : State) : s.txDeq.2.config = s.config := by
  rcases s.txDeq_cases with ⟨-, e⟩ | ⟨-, e⟩ <;> rw [e] <;> rfl

@[simp] theorem State.rxDeq_config (s : State) : s.rxDeq.2.config = s.config := by
  rcases s.rxDeq_cases with ⟨-, e⟩ | ⟨-, e⟩ <;> rw [e]
  rfl

@[simp] theorem State.serveTx_config (s : State) : s.serveTx.2.config = s.config := by
  rcases s.serveTx_cases with ⟨-, e⟩ | ⟨-, e⟩ <;> rw [e] <;> rfl

@[simp] theorem State.serveRx_config (s : State) : s.serveRx.2.config = s.config := by
  rcases s.serveRx_cases.2 with ⟨-, e⟩ | ⟨-, e⟩ <;> simp [e, State.config_eq_iff]

/-- `S_ISR`: whichever of the two checks run. -/
theorem execSIsr_config (d : Byte) (s : State) : ∃ t, execSIsr d s = .next t ∧ t.config = s.config := by
  rcases execSIsr_cases d s with ⟨-, -, e⟩ | ⟨-, -, e⟩ | ⟨-, -, e⟩ | ⟨-, -, e⟩ <;> exact ⟨_, e, by simp⟩

/-- Every command completes, and in a state of the same configuration. -/
theorem exec_config (i : Instr) (s : State) : ∃ t, exec i s = .next t ∧ t.config = s.config := by
  cases i with
  | aTxEnq b => exact ⟨_, rfl, s.txEnq_config b⟩
  | aRxDeq _ => exact ⟨_, rfl, s.rxDeq_config⟩
  | aErrClr _ => exact ⟨_, rfl, State.requestErrClear_config _⟩
  | sIsr d => exact execSIsr_config d s
  | sTxDeq _ => exact ⟨_, rfl, s.txDeq_config⟩
  | sRxEnq b => exact ⟨_, rfl, s.rxEnq_config b⟩
  | _ => exact ⟨_, rfl, rfl⟩

theorem State.internalEffect_config (s : State) (k : InternalStep) : (s.internalEffect k).config = s.config := by
  cases k with
  | wPub f => exact State.setFifo_config rfl
  | rPub f => exact State.setFifo_config rfl
  | syncR2W f v => exact State.setFifo_config rfl
  | syncW2R f v => exact (State.armIfTx_config _ f).trans (State.setFifo_config (Fifo.syncW2R_aw _ v))
  | capture f => exact (State.armIfTx_config _ f).trans (State.setFifo_config (Fifo.capture_aw _))
  | ackSync f => exact State.setFifo_config (Fifo.ackSync_aw _)
  | errRxSync => rfl
  | ecReqSync => rfl
  | ecAckSync => rcases s.ecAckSync_cases with ⟨-, -, e⟩ | ⟨-, e⟩ <;> simp only [State.internalEffect, e] <;> rfl

theorem State.internalStep_config (s : State) (k : InternalStep) : (s.internalStep k).config = s.config := by
  rcases s.internalStep_cases k with ⟨-, e⟩ | ⟨-, e⟩ <;> rw [e]
  exact s.internalEffect_config k

/-- The registers of a reset come back for the same configuration (R350). -/
@[simp] theorem State.resetTo_config (s : State) (a b : Bool) : (s.resetTo a b).config = s.config := rfl

theorem State.setResetPins_config {s t : State} {a b : Bool} (h : s.setResetPins a b = .next t) :
    t.config = s.config := by
  rcases s.setResetPins_cases a b with ⟨-, -, e⟩ | ⟨-, -, -, e⟩ | ⟨-, e⟩ <;> rw [e] at h <;> cases h
  · rfl
  · exact s.resetTo_config a b

theorem exec_next_config {i : Instr} {s t : State} (h : exec i s = .next t) : t.config = s.config := by
  obtain ⟨u, hu, hc⟩ := exec_config i s
  cases hu.symm.trans h
  exact hc

theorem runEvent_config {e : Event} {s t : State} (h : runEvent e s = .next t) : t.config = s.config := by
  cases e with
  | appCmd w => exact exec_next_config h
  | serCmd w =>
    rcases acceptSer_cases w s with ⟨-, e⟩ | ⟨-, e⟩
    · exact exec_next_config (e.symm.trans h)
    · cases e.symm.trans h
      rfl
  | dispatch =>
    rcases dispatcherTurn_cases s with ⟨-, e⟩ | ⟨-, e⟩
    · exact exec_next_config (e.symm.trans h)
    · cases e.symm.trans h
      rfl
  | internal k =>
    cases h
    exact s.internalStep_config k
  | resetPins a b => exact State.setResetPins_config h
  | appIdle | serIdle | periphTxc | periphRxa _ =>
    cases h
    rfl

/-- No transition changes the configuration, whether the block runs or is held in reset (R8). -/
theorem stepEvent_config {e : Event} {s t : State} (h : stepEvent e s = .next t) : t.config = s.config := by
  cases hr : s.inReset with
  | false => exact runEvent_config (stepEvent_running hr e ▸ h)
  | true =>
    cases e with
    | resetPins a b => exact State.setResetPins_config h
    | _ =>
      simp only [stepEvent, hr, if_true] at h
      cases h
      rfl

/-! ### Which configurations a machine is built for (R8, R11) -/

theorem widthOfCapacity_eq_some_iff {c : Nat} {aw : Fin 16} : widthOfCapacity c = some aw ↔ c = 2 ^ aw.val := by
  have found {a : Fin 16} (h : widthOfCapacity c = some a) : c = 2 ^ a.val := by
    have hp := List.find?_some h
    exact (beq_iff_eq.mp hp).symm
  refine ⟨found, fun hc => ?_⟩
  have hs : (widthOfCapacity c).isSome := List.find?_isSome.mpr ⟨aw, List.mem_finRange aw, by simp [slotCount, hc]⟩
  obtain ⟨a, ha⟩ := Option.isSome_iff_exists.mp hs
  have hpow : 2 ^ a.val = 2 ^ aw.val := (found ha).symm.trans hc
  rw [ha, Fin.ext (Nat.pow_right_injective le_rfl hpow)]

/-- A machine is built exactly where both capacities have an address width and there are two stages, and it is the
reset machine of those widths. -/
theorem boot_eq_ok_iff {cTx cRx n : Nat} {m : SerCmdMode} {p : RxOvrPolicy} {s : State} :
    boot cTx cRx m p n = .ok s ↔ ∃ a b : Fin 16, cTx = 2 ^ a.val ∧ cRx = 2 ^ b.val ∧ 2 ≤ n ∧
      s = State.ofConfig { awTx := a, awRx := b, serCmdMode := m, rxOvrPolicy := p, syncStages := n } := by
  simp only [← widthOfCapacity_eq_some_iff]
  cases hT : widthOfCapacity cTx with
  | none => simp [boot, buildConfig, hT]
  | some a =>
    cases hR : widthOfCapacity cRx with
    | none => simp [boot, buildConfig, hT, hR]
    | some b =>
      rcases Nat.lt_or_ge n 2 with hn | hn
      · simp [boot, buildConfig, hT, hR, hn]
      · simp [boot, buildConfig, hT, hR, hn, Nat.not_lt.mpr hn, eq_comm]

/-- Settles O37: each operation keeps the five parameters, and `widthOfCapacity` inverts `2 ^ aw`. -/
theorem capacityIsAFixedPowerOfTwo : Obligations.CapacityIsAFixedPowerOfTwo := by
  refine ⟨fun _ _ => widthOfCapacity_eq_some_iff, fun cTx cRx n m p => ⟨⟨?_, ?_⟩, ?_⟩,
    fun _ _ _ h => stepEvent_config h⟩
  · rintro ⟨s, h⟩
    obtain ⟨a, b, ha, hb, hn, -⟩ := boot_eq_ok_iff.mp h
    exact ⟨⟨a, ha⟩, ⟨b, hb⟩, hn⟩
  · rintro ⟨⟨a, ha⟩, ⟨b, hb⟩, hn⟩
    exact ⟨_, boot_eq_ok_iff.mpr ⟨a, b, ha, hb, hn, rfl⟩⟩
  · intro s h
    obtain ⟨a, b, ha, hb, -, rfl⟩ := boot_eq_ok_iff.mp h
    exact ⟨ha.symm, hb.symm⟩

/-! ### Gray code (00_scope.md R16) -/

/-- `gray` is linear, so a difference of codes is the code of a difference. -/
theorem gray_xor (a b : Ptr) : gray (a ^^^ b) = gray a ^^^ gray b := by
  rw [gray, gray, gray, BitVec.ushiftRight_xor_distrib]
  ac_rfl

theorem gray_getLsbD (b : Ptr) (i : Nat) : (gray b).getLsbD i = (b.getLsbD i ^^ b.getLsbD (i + 1)) := by
  simp [gray, Nat.add_comm 1 i]

/-- After `k` rounds a code word is its value mixed only with that value shifted by `k + 1`. -/
theorem ungrayRounds_gray (k : Nat) (b : Ptr) : ungrayRounds k (gray b) = b ^^^ b >>> (k + 1) := by
  induction k with
  | zero => rfl
  | succ k ih =>
    calc gray b ^^^ ungrayRounds k (gray b) >>> 1
        = b ^^^ b >>> 1 ^^^ (b >>> 1 ^^^ b >>> (k + 1 + 1)) := by
          rw [ih, BitVec.ushiftRight_xor_distrib, ← BitVec.shiftRight_add, gray]
      _ = b ^^^ b >>> (k + 1 + 1) := by
          rw [BitVec.xor_assoc, ← BitVec.xor_assoc (b >>> 1), BitVec.xor_self, BitVec.zero_xor]

@[simp] theorem ungray_gray (b : Ptr) : ungray (gray b) = b := by
  rw [ungray, ungrayRounds_gray, BitVec.ushiftRight_eq_zero (Nat.le_refl 16)]
  exact BitVec.xor_zero

/-- A left inverse on a finite type is a right inverse. -/
@[simp] theorem gray_ungray (g : Ptr) : gray (ungray g) = g :=
  have inj : Function.Injective gray := Function.LeftInverse.injective ungray_gray
  Function.LeftInverse.rightInverse_of_surjective ungray_gray (Finite.surjective_of_injective inj) g

/-- The recursion of R16, the top bit with it. -/
theorem ungray_getLsbD (g : Ptr) (i : Nat) :
    (ungray g).getLsbD i = ((ungray g).getLsbD (i + 1) ^^ g.getLsbD i) := by
  have h := gray_getLsbD (ungray g) i
  rw [gray_ungray] at h
  rw [h, Bool.xor_comm, Bool.xor_assoc, Bool.xor_self, Bool.xor_false]

/-- Both directions combine a pointer value with one shifted down by a bit, which keeps the width (R9). -/
theorem inRange_xor_shift {aw : Nat} {a b : Ptr} (ha : inRange aw a = true) (hb : inRange aw b = true) :
    inRange aw (a ^^^ b >>> 1) = true := by
  rw [inRange_iff] at *
  rw [BitVec.toNat_xor, BitVec.toNat_ushiftRight, Nat.shiftRight_eq_div_pow]
  exact Nat.xor_lt_two_pow ha (Nat.lt_of_le_of_lt (Nat.div_le_self ..) hb)

theorem inRange_gray {aw : Nat} {b : Ptr} (h : inRange aw b = true) : inRange aw (gray b) = true :=
  inRange_xor_shift h h

theorem inRange_ungray {aw : Nat} {g : Ptr} (h : inRange aw g = true) : inRange aw (ungray g) = true := by
  have rounds (k : Nat) : inRange aw (ungrayRounds k g) = true := by
    induction k with
    | zero => exact h
    | succ k ih => exact inRange_xor_shift h ih
  exact rounds 15

/-- A pointer value has no bit above its width. -/
theorem getLsbD_of_inRange {aw : Nat} {b : Ptr} (h : inRange aw b = true) : b.getLsbD (aw + 1) = false :=
  Nat.testBit_lt_two_pow (inRange_iff.mp h)

/-- The top bit of a code word is that of its value. -/
theorem ungray_top {aw : Nat} {g : Ptr} (h : inRange aw g = true) : (ungray g).getLsbD aw = g.getLsbD aw := by
  rw [ungray_getLsbD, getLsbD_of_inRange (inRange_ungray h), Bool.false_xor]

/-- An increment flips the lowest `k + 1` bits: the trailing ones and the zero above them. -/
theorem exists_succ_xor_self (n : Nat) : ∃ k, (n + 1) ^^^ n = 2 ^ (k + 1) - 1 := by
  induction n using Nat.strong_induction_on with
  | _ n ih =>
    have hdiv : ((n + 1) ^^^ n) / 2 = (n + 1) / 2 ^^^ n / 2 := Nat.xor_div_two
    have hmod : ((n + 1) ^^^ n) % 2 = (n + 1 + n) % 2 := Nat.xor_mod_two_eq
    obtain ⟨m, rfl | rfl⟩ := n.even_or_odd'
    · have e : (2 * m + 1) / 2 = m := by omega
      rw [e, Nat.mul_div_cancel_left m two_pos, Nat.xor_self] at hdiv
      exact ⟨0, by omega⟩
    · obtain ⟨k, hk⟩ := ih m (by omega)
      have e₁ : (2 * m + 1 + 1) / 2 = m + 1 := by omega
      have e₀ : (2 * m + 1) / 2 = m := by omega
      rw [e₁, e₀, hk] at hdiv
      have hpow := Nat.two_pow_pos (k + 1)
      exact ⟨k + 1, by rw [Nat.pow_succ]; omega⟩

/-- The same for a pointer, where the wrap flips every bit of it (R15). -/
theorem exists_ptrSucc_xor_self {aw : Fin 16} {b : Ptr} (h : inRange aw b = true) :
    ∃ k, k ≤ aw.val ∧ ptrSucc aw b ^^^ b = BitVec.ofNat 16 (2 ^ (k + 1) - 1) := by
  rw [inRange_iff] at h
  have of_toNat {k : Nat} (hx : (ptrSucc aw b).toNat ^^^ b.toNat = 2 ^ (k + 1) - 1) :
      ptrSucc aw b ^^^ b = BitVec.ofNat 16 (2 ^ (k + 1) - 1) := by
    rw [← hx, ← BitVec.toNat_xor, BitVec.ofNat_toNat, BitVec.setWidth_eq]
  by_cases hw : b.toNat + 1 = ptrModulus aw
  · refine ⟨aw, le_rfl, of_toNat ?_⟩
    rw [ptrSucc_toNat h, if_pos hw, Nat.zero_xor]
    exact Nat.eq_sub_of_add_eq hw
  · obtain ⟨k, hk⟩ := exists_succ_xor_self b.toNat
    have hlt : 2 ^ (k + 1) - 1 < ptrModulus aw :=
      hk ▸ Nat.xor_lt_two_pow (show b.toNat + 1 < ptrModulus aw by omega) h
    have hle : 2 ^ (k + 1) ≤ 2 ^ (aw.val + 1) := Nat.le_of_pred_lt hlt
    refine ⟨k, Nat.le_of_succ_le_succ ((Nat.pow_le_pow_iff_right one_lt_two).mp hle), of_toNat ?_⟩
    rw [ptrSucc_toNat h, if_neg hw, hk]

/-- The code of a run of ones from bit 0 is its top one. -/
theorem gray_lowOnes {k : Nat} (hk : k < 16) : gray (BitVec.ofNat 16 (2 ^ (k + 1) - 1)) = BitVec.twoPow 16 k := by
  have ones (j : Nat) : (BitVec.ofNat 16 (2 ^ (k + 1) - 1)).getLsbD j = decide (j ≤ k) := by
    rw [BitVec.getLsbD_ofNat, Nat.testBit_two_pow_sub_one, Bool.eq_iff_iff, Bool.and_eq_true, decide_eq_true_iff,
      decide_eq_true_iff, decide_eq_true_iff]
    omega
  apply BitVec.eq_of_getLsbD_eq
  intro i _
  rw [gray_getLsbD, ones, ones, BitVec.getLsbD_twoPow]
  rcases Nat.lt_trichotomy i k with h | rfl | h
  · simp [h, h.le, h.ne']
  · simp [hk]
  · simp [h.not_ge, h.ne, show ¬ i < k by omega]

/-- Consecutive pointer values have codes that differ in one bit (R16). -/
theorem gray_ptrSucc_xor_gray {aw : Fin 16} {b : Ptr} (h : inRange aw b = true) :
    ∃ k : Nat, k ≤ aw.val ∧ gray (ptrSucc aw b) ^^^ gray b = BitVec.twoPow 16 k := by
  obtain ⟨k, hk, hx⟩ := exists_ptrSucc_xor_self h
  exact ⟨k, hk, by rw [← gray_xor, hx, gray_lowOnes (Nat.lt_of_le_of_lt hk aw.isLt)]⟩

/-- Settles O7: `gray` is linear with inverse `ungray`, and an increment flips a run of ones. -/
theorem grayCodeInverseAndOneBitChange : Obligations.GrayCodeInverseAndOneBitChange :=
  ⟨fun b => ⟨rfl, ungray_gray b⟩, fun g => ⟨gray_ungray g, fun i _ => ungray_getLsbD g i⟩,
    fun _ _ h => ⟨inRange_gray h, inRange_ungray h, ungray_top h, gray_ptrSucc_xor_gray h⟩⟩

/-! ### Occupancies (00_scope.md R10; 10_state.md R40, R41) -/

/-- Positions in order from an origin are as far apart as their distances from it. -/
theorem dist_eq_sub_of_le {aw : Nat} {a b o : Ptr} (ha : inRange aw a = true) (hb : inRange aw b = true)
    (ho : inRange aw o = true) (h : dist aw b o ≤ dist aw a o) : dist aw a b = dist aw a o - dist aw b o := by
  rw [inRange_iff] at ha hb ho
  rw [dist_of_inRange ha ho, dist_of_inRange hb ho] at *
  rw [dist_of_inRange ha hb]
  split at h <;> split at h <;> split <;> omega

theorem Fifo.capacity_le (f : Fifo) : f.capacity ≤ 2 ^ 15 :=
  Nat.pow_le_pow_right two_pos (Nat.le_of_lt_succ f.aw.isLt)

/-- The producer's count is the length of the chain of R49 item 1. -/
theorem Fifo.Inv.wcount_le {f : Fifo} (h : f.Inv) : f.wcount ≤ f.capacity := by
  obtain ⟨-, ⟨-, -, -, -, hcap⟩, -⟩ := h
  exact hcap

/-- The consumer's count is a part of that chain. -/
theorem Fifo.Inv.rcount_le {f : Fifo} (h : f.Inv) : f.rcount ≤ f.capacity := by
  obtain ⟨⟨⟨-, -, hrq, -, -, hrhead, -, hwq, -⟩, -⟩, ⟨-, hview, hpub, hptr, hcap⟩, -⟩ := h
  have hdist : dist f.aw f.wqb f.rhead = f.pos f.wqb - f.pos f.rhead :=
    dist_eq_sub_of_le (inRange_ungray hwq) hrhead (inRange_ungray hrq) hview
  rw [Fifo.rcount]
  split <;> omega

/-- A count of at most the greatest capacity comes back whole from its field. -/
theorem countField_toNat {n : Nat} (h : n ≤ 2 ^ 15) : (countField n).toNat = n := by
  rw [countField, BitVec.toNat_ofNat, Nat.mod_eq_of_lt (by omega)]

/-- Settles O15: the chain of R49 item 1 bounds both counts by the capacity, and the capacity fits the field. -/
theorem countsFitTheirField : Obligations.CountsFitTheirField := by
  rintro d s ⟨htx, hrx, -⟩
  refine ⟨fun f => ?_, ⟨_, rfl, countField_toNat (htx.wcount_le.trans s.txf.capacity_le)⟩,
    ⟨_, rfl, countField_toNat (hrx.rcount_le.trans s.rxf.capacity_le)⟩,
    ⟨_, rfl, countField_toNat (htx.rcount_le.trans s.txf.capacity_le)⟩⟩
  cases f with
  | tx => exact ⟨htx.wcount_le, htx.rcount_le, s.txf.capacity_le⟩
  | rx => exact ⟨hrx.wcount_le, hrx.rcount_le, s.rxf.capacity_le⟩

end Sys2Proof.Machine

/-! SUPPORT. The statements of 10_state.md: what sets and clears the error latches. -/

namespace Sys2Proof.Machine

/-! ### The fields of a decoded word (30_encoding.md R110) -/

/-- The operation code by its bits, as both decoders read it. -/
theorem opField_eq_bits (w : Cmd) :
    opField w = (BitVec.ofBool (w.getLsbD 11) ++ BitVec.ofBool (w.getLsbD 10) ++ BitVec.ofBool (w.getLsbD 9) ++
      BitVec.ofBool (w.getLsbD 8) : BitVec (1 + 1 + 1 + 1)) := by
  have bit (k : Nat) (hk : k < 4) : (opField w).getLsbD k = w.getLsbD (8 + k) := by
    rw [opField, BitVec.getLsbD_extractLsb', decide_eq_true hk, Bool.true_and]
  rw [← bit 3 (by decide), ← bit 2 (by decide), ← bit 1 (by decide), ← bit 0 (by decide)]
  generalize opField w = op
  revert op
  decide

/-- A decoded word is an instruction of its port and holds the word's two fields. -/
theorem decode_fields (p : Port) (w : Cmd) :
    (decode p w).port = p ∧ opcodeOf (decode p w) = opField w ∧ byteOf (decode p w) = byteField w := by
  rw [opField_eq_bits]
  cases p
  all_goals
    simp only [decode, decodeA, decodeS]
    cases w.getLsbD 11 <;> cases w.getLsbD 10 <;> cases w.getLsbD 9 <;> cases w.getLsbD 8 <;> exact ⟨rfl, rfl, rfl⟩

/-! ### What a command does to the FIFOs' write ends and to the latches, by its port and code -/

/-- The byte that a command offers to the write end of `f`, where it offers one (R152, R204, R207). -/
def offersTo (f : FifoId) (i : Instr) (s : State) : Option Byte :=
  match f, i.port with
  | .tx, .app => if opcodeOf i == 1 then some (byteOf i) else none
  | .rx, .ser =>
    if opcodeOf i == 3 then some (byteOf i)
    else if opcodeOf i == 1 && s.rxp then some s.periph.rdr
    else none
  | _, _ => none

/-- The command is `A_ERR_CLR` (R158). -/
def isErrClr (i : Instr) : Bool := i.port == .app && opcodeOf i == 7

/-- The event presents `A_ERR_CLR` (R158). -/
def presentsErrClr (e : Event) : Bool :=
  match e with
  | .appCmd w => opField w == 7
  | _ => false

theorem isErrClr_decode_app (w : Cmd) : isErrClr (decode .app w) = presentsErrClr (.appCmd w) := by
  obtain ⟨hp, ho, -⟩ := decode_fields .app w
  simp [isErrClr, presentsErrClr, hp, ho]

theorem isErrClr_decode_ser (w : Cmd) : isErrClr (decode .ser w) = false := by
  simp [isErrClr, (decode_fields .ser w).1]

theorem offeredBy_appCmd {s : State} (h : s.inReset = false) (f : FifoId) (w : Cmd) :
    offeredBy f (.appCmd w) s = offersTo f (decode .app w) s := by
  obtain ⟨hp, ho, hb⟩ := decode_fields .app w
  cases f <;> simp [offeredBy, offersTo, h, hp, ho, hb]

theorem offeredBy_serCmd_external {s : State} (h : s.inReset = false) (hm : s.serMode = .external) (f : FifoId)
    (w : Cmd) : offeredBy f (.serCmd w) s = offersTo f (decode .ser w) s := by
  obtain ⟨hp, ho, hb⟩ := decode_fields .ser w
  cases f <;> simp [offeredBy, offersTo, runsIsr, h, hm, hp, ho, hb]

theorem offeredBy_serCmd_auto {s : State} (hm : s.serMode = .auto) (f : FifoId) (w : Cmd) :
    offeredBy f (.serCmd w) s = none := by
  cases f <;> simp [offeredBy, runsIsr, hm]

theorem offeredBy_dispatch_enabled {s : State} (h : s.inReset = false) (hd : s.dispatchEnabled = true) (f : FifoId) :
    offeredBy f .dispatch s = offersTo f (.sIsr 0) s := by
  cases f <;> simp [offeredBy, offersTo, runsIsr, Instr.port, opcodeOf, h, hd]

theorem offeredBy_dispatch_disabled {s : State} (hd : s.dispatchEnabled = false) (f : FifoId) :
    offeredBy f .dispatch s = none := by
  cases f <;> simp [offeredBy, runsIsr, hd]

theorem offeredBy_inReset {s : State} (h : s.inReset = true) (f : FifoId) (e : Event) : offeredBy f e s = none := by
  simp [offeredBy, h]

/-! ### The error latches (R44): what each operation makes of them -/

/-- `err_tx`, `err_rx` and `err_rx_q`. -/
def State.latches (s : State) : Bool × Bool × Bool := (s.errTx, s.errRx, s.errRxQ)

@[simp] theorem State.rspA_latches (s : State) (v : Count) (f0 f1 ill : Bool) :
    (s.rspA v f0 f1 ill).latches = s.latches := rfl

@[simp] theorem State.rspS_latches (s : State) (v : Count) (f0 f1 ill : Bool) :
    (s.rspS v f0 f1 ill).latches = s.latches := rfl

theorem State.txEnq_latches (s : State) (b : Byte) :
    (s.txEnq b).2.latches = (s.errTx || s.txf.wfull, s.errRx, s.errRxQ) := by
  rcases s.txEnq_cases b with ⟨h, e⟩ | ⟨h, e⟩ <;> simp [e, h, State.latches]

theorem State.rxEnq_latches (s : State) (b : Byte) :
    (s.rxEnq b).2.latches = (s.errTx, s.errRx || s.rxf.wfull, s.errRxQ) := by
  rcases s.rxEnq_cases b with ⟨h, e⟩ | ⟨h, e⟩ <;> simp [e, h, State.latches]

@[simp] theorem State.txDeq_latches (s : State) : s.txDeq.2.latches = s.latches := by
  rcases s.txDeq_cases with ⟨-, e⟩ | ⟨-, e⟩ <;> rw [e] <;> rfl

@[simp] theorem State.rxDeq_latches (s : State) : s.rxDeq.2.latches = s.latches := by
  rcases s.rxDeq_cases with ⟨-, e⟩ | ⟨-, e⟩ <;> rw [e]
  rfl

@[simp] theorem State.requestErrClear_latches (s : State) : s.requestErrClear.latches = s.latches := by
  rcases s.requestErrClear_cases with ⟨-, e⟩ | ⟨-, e⟩ <;> rw [e] <;> rfl

@[simp] theorem State.serveTx_latches (s : State) : s.serveTx.2.latches = s.latches := by
  rcases s.serveTx_cases with ⟨-, e⟩ | ⟨-, e⟩ <;> rw [e] <;> rfl

/-- Check 2 of `S_ISR` drops the received byte as `RXENQ` does (R203, R204). -/
theorem State.serveRx_latches (s : State) :
    s.serveRx.2.latches = (s.errTx, s.errRx || s.rxf.wfull, s.errRxQ) := by
  rcases s.serveRx_cases.2 with ⟨h, e⟩ | ⟨h, e⟩ <;> simp [e, h, State.latches]

/-- Check 1 comes first and leaves what check 2 reads. -/
theorem State.serveTx_serveRx_latches (s : State) :
    s.serveTx.2.serveRx.2.latches = (s.errTx, s.errRx || s.rxf.wfull, s.errRxQ) := by
  have h := s.serveTx_latches
  simp only [State.latches, Prod.mk.injEq] at h
  obtain ⟨hTx, hRx, hRxQ⟩ := h
  rw [State.serveRx_latches, hTx, hRx, hRxQ, s.serveTx_rx.1]

theorem execSIsr_latches (d : Byte) (s : State) :
    ∃ t, execSIsr d s = .next t ∧ t.latches = (s.errTx, s.errRx || (s.rxp && s.rxf.wfull), s.errRxQ) := by
  rcases execSIsr_cases d s with ⟨-, hr, e⟩ | ⟨-, hr, e⟩ | ⟨-, hr, e⟩ | ⟨-, hr, e⟩ <;> refine ⟨_, e, ?_⟩
  · simp [hr, State.latches]
  · simpa [hr, State.latches] using s.serveTx_latches
  · simp [hr, State.serveRx_latches]
  · simp [hr, State.serveTx_serveRx_latches]

/-- What a command makes of the latches: a byte offered to a full FIFO sets one, and `A_ERR_CLR` clears `err_tx`. -/
def State.latchesAfter (s : State) (i : Instr) : Bool × Bool × Bool :=
  ((s.errTx && !isErrClr i) || ((offersTo .tx i s).isSome && s.txf.wfull),
    s.errRx || ((offersTo .rx i s).isSome && s.rxf.wfull), s.errRxQ)

/-- A command that clears nothing and offers nothing leaves the latches as they are. -/
theorem State.latches_eq_of_no_offer {s : State} {i : Instr} (hc : isErrClr i = false)
    (ht : offersTo .tx i s = none) (hr : offersTo .rx i s = none) : s.latches = s.latchesAfter i := by
  simp [State.latchesAfter, hc, ht, hr, State.latches]

theorem exec_latches (i : Instr) (s : State) : ∃ t, exec i s = .next t ∧ t.latches = s.latchesAfter i := by
  cases i with
  | aTxEnq b =>
    exact ⟨_, rfl, (s.txEnq_latches b).trans (by simp [State.latchesAfter, isErrClr, offersTo, Instr.port, opcodeOf])⟩
  | aRxDeq _ => exact ⟨_, rfl, s.rxDeq_latches.trans (State.latches_eq_of_no_offer rfl rfl rfl)⟩
  | aErrClr _ =>
    exact ⟨_, rfl, (State.requestErrClear_latches _).trans
      (by simp [State.latches, State.latchesAfter, isErrClr, offersTo, Instr.port, opcodeOf])⟩
  | sIsr d =>
    obtain ⟨t, ht, hl⟩ := execSIsr_latches d s
    refine ⟨t, ht, hl.trans ?_⟩
    cases hr : s.rxp <;> simp [hr, State.latchesAfter, isErrClr, offersTo, Instr.port, opcodeOf]
  | sTxDeq _ => exact ⟨_, rfl, s.txDeq_latches.trans (State.latches_eq_of_no_offer rfl rfl rfl)⟩
  | sRxEnq b =>
    exact ⟨_, rfl, (s.rxEnq_latches b).trans (by simp [State.latchesAfter, isErrClr, offersTo, Instr.port, opcodeOf])⟩
  | _ => exact ⟨_, rfl, State.latches_eq_of_no_offer rfl rfl rfl⟩

theorem exec_next_latches {i : Instr} {s t : State} (h : exec i s = .next t) : t.latches = s.latchesAfter i := by
  obtain ⟨u, hu, hl⟩ := exec_latches i s
  cases hu.symm.trans h
  exact hl

/-- Of the internal steps only `ERR_RX_SYNC` and `EC_REQ_SYNC` write a latch (R259, R260). -/
theorem State.internalEffect_latches (s : State) (k : InternalStep) :
    (s.internalEffect k).latches =
      (s.errTx, s.errRx && !(k == .ecReqSync), if k == .errRxSync then s.errRx else s.errRxQ) := by
  cases k with
  | ecAckSync => rcases s.ecAckSync_cases with ⟨-, -, e⟩ | ⟨-, e⟩ <;> simp [State.internalEffect, e, State.latches]
  | _ => simp [State.internalEffect, State.latches]

/-- `ERR_RX_SYNC` is enabled exactly where it changes the view, so only `EC_REQ_SYNC` shows its condition. -/
theorem State.internalStep_latches (s : State) (k : InternalStep) :
    (s.internalStep k).latches = (s.errTx, s.errRx && !(k == .ecReqSync && s.ecReqQ != s.ecReq),
      if k == .errRxSync then s.errRx else s.errRxQ) := by
  rcases s.internalStep_cases k with ⟨h, e⟩ | ⟨h, e⟩ <;> rw [e]
  · rw [s.internalEffect_latches]
    cases k with
    | ecReqSync =>
      have hq : (s.ecReqQ != s.ecReq) = true := h
      simp [hq]
    | _ => rfl
  · cases k with
    | errRxSync =>
      have hq : s.errRxQ = s.errRx := bne_eq_false_iff_eq.mp h
      simp [State.latches, hq, beq_eq_decide]
    | ecReqSync =>
      have hq : (s.ecReqQ != s.ecReq) = false := h
      simp [State.latches, hq]
    | _ => simp [State.latches, beq_eq_decide]

/-- Every transition but a reset, with the resets released. -/
theorem runEvent_latches {e : Event} {s t : State} (hr : s.inReset = false) (he : isResetEvent e = false)
    (h : runEvent e s = .next t) :
    t.latches = ((s.errTx && !presentsErrClr e) || ((offeredBy .tx e s).isSome && s.txf.wfull),
      (s.errRx && !(e == .internal .ecReqSync && s.ecReqQ != s.ecReq)) ||
        ((offeredBy .rx e s).isSome && s.rxf.wfull),
      if e == .internal .errRxSync then s.errRx else s.errRxQ) := by
  cases e with
  | appCmd w => simp [exec_next_latches h, State.latchesAfter, isErrClr_decode_app, offeredBy_appCmd hr, beq_eq_decide]
  | serCmd w =>
    rcases acceptSer_cases w s with ⟨hm, e⟩ | ⟨hm, e⟩
    · simp [exec_next_latches (e.symm.trans h), State.latchesAfter, isErrClr_decode_ser,
        offeredBy_serCmd_external hr hm, presentsErrClr, beq_eq_decide]
    · cases e.symm.trans h
      simp [offeredBy_serCmd_auto hm, presentsErrClr, State.latches]
  | dispatch =>
    rcases dispatcherTurn_cases s with ⟨hd, e⟩ | ⟨hd, e⟩
    · simp [exec_next_latches (e.symm.trans h), State.latchesAfter, isErrClr, Instr.port,
        offeredBy_dispatch_enabled hr hd, presentsErrClr, beq_eq_decide]
    · cases e.symm.trans h
      simp [offeredBy_dispatch_disabled hd, presentsErrClr, State.latches]
  | internal k =>
    cases h
    simp [s.internalStep_latches, offeredBy, presentsErrClr, beq_eq_decide]
  | resetPins _ _ => cases he
  | appIdle | serIdle | periphTxc | periphRxa _ =>
    cases h
    simp [offeredBy, presentsErrClr, State.latches]

/-- Every transition but a reset: a block held in reset keeps its latches (R350). -/
theorem stepEvent_latches {e : Event} {s t : State} (he : isResetEvent e = false) (h : stepEvent e s = .next t) :
    t.latches = ((s.errTx && !(!s.inReset && presentsErrClr e)) || ((offeredBy .tx e s).isSome && s.txf.wfull),
      (s.errRx && !(!s.inReset && e == .internal .ecReqSync && s.ecReqQ != s.ecReq)) ||
        ((offeredBy .rx e s).isSome && s.rxf.wfull),
      if !s.inReset && e == .internal .errRxSync then s.errRx else s.errRxQ) := by
  cases hr : s.inReset with
  | false => simpa [hr] using runEvent_latches hr he (stepEvent_running hr e ▸ h)
  | true =>
    cases (stepEvent_inReset hr he).symm.trans h
    simp [offeredBy_inReset hr, State.latches]

/-- Settles O27: a command sets a latch by an overflow only, and of the internal steps two write one. -/
theorem errorLatchesSticky : Obligations.ErrorLatchesSticky := by
  refine ⟨fun e s t he h => ?_, fun s => ?_⟩
  · have hl := stepEvent_latches he h
    simp only [State.latches, Prod.mk.injEq] at hl
    exact hl
  · rcases s.setResetPins_cases false false with ⟨-, hne, -⟩ | ⟨-, ha, -, -⟩ | ⟨-, e⟩
    · exact absurd rfl hne
    · cases ha
    · exact ⟨_, e, rfl, rfl, rfl⟩

end Sys2Proof.Machine

/-! SUPPORT. The statements of 20_memory.md: what the observers of the channel leave alone. -/

namespace Sys2Proof.Machine

/-! ### Commands that only answer (20_memory.md R99) -/

/-- An APP command whose answer `ans` is read outside the APP response registers is a pure observer. -/
theorem exec_observes_app {i : Instr} (ans : State → Response)
    (answers : ∀ s, exec i s = .next { s with aRsp := ans s, aRspValid := true })
    (blind : ∀ s r, ans { s with aRsp := r, aRspValid := true } = ans s) (s : State) :
    ∃ t, exec i s = .next t ∧ t = { s with aRsp := t.aRsp, aRspValid := true } ∧ exec i t = .next t :=
  ⟨_, answers s, rfl, by rw [answers, blind]⟩

/-- A SER command whose answer `ans` is read outside the SER response registers is a pure observer. -/
theorem exec_observes_ser {i : Instr} (ans : State → Response)
    (answers : ∀ s, exec i s = .next { s with sRsp := ans s, sRspValid := true })
    (blind : ∀ s r, ans { s with sRsp := r, sRspValid := true } = ans s) (s : State) :
    ∃ t, exec i s = .next t ∧ t = { s with sRsp := t.sRsp, sRspValid := true } ∧ exec i t = .next t :=
  ⟨_, answers s, rfl, by rw [answers, blind]⟩

/-- Settles O20: each observer answers from counts, views and error bits, none of them a response register. -/
theorem observersChangeNothing : Obligations.ObserversChangeNothing := by
  refine fun d s => ⟨fun i hi => ?_, fun i hi => ?_⟩ <;> simp only [List.mem_cons, List.not_mem_nil, or_false] at hi
  · obtain rfl | rfl | rfl | rfl | rfl := hi
    · exact exec_observes_app (fun s => ⟨countField s.txf.wcount, false, false, false⟩)
        (fun _ => rfl) (fun _ _ => rfl) s
    · exact exec_observes_app (fun s => ⟨0, s.txf.wfull, false, false⟩) (fun _ => rfl) (fun _ _ => rfl) s
    · exact exec_observes_app (fun s => ⟨countField s.rxf.rcount, false, false, false⟩)
        (fun _ => rfl) (fun _ _ => rfl) s
    · exact exec_observes_app (fun s => ⟨s.errCause, s.err, false, false⟩) (fun _ => rfl) (fun _ _ => rfl) s
    · exact exec_observes_app (fun _ => ⟨0, false, false, false⟩) (fun _ => rfl) (fun _ _ => rfl) s
  · obtain rfl | rfl | rfl := hi
    · exact exec_observes_ser (fun s => ⟨countField s.txf.rcount, false, false, false⟩)
        (fun _ => rfl) (fun _ _ => rfl) s
    · exact exec_observes_ser (fun s => ⟨0, s.txf.rfull, false, false⟩) (fun _ => rfl) (fun _ _ => rfl) s
    · exact exec_observes_ser (fun _ => ⟨0, false, false, false⟩) (fun _ => rfl) (fun _ _ => rfl) s

end Sys2Proof.Machine

/-! SUPPORT. The statements of 30_encoding.md: the commands by operation code, and the byte that most of them ignore. -/

namespace Sys2Proof.Machine

/-! ### A word written as an operation code and a byte (30_encoding.md R110) -/

@[simp] theorem opField_append (op : BitVec 4) (d : Byte) : opField (op ++ d) = op :=
  BitVec.extractLsb'_append_eq_left

@[simp] theorem byteField_append (op : BitVec 4) (d : Byte) : byteField (op ++ d) = d :=
  BitVec.extractLsb'_append_eq_right

/-! ### The commands of each port, in the order of their operation codes (30_encoding.md R111, R112) -/

/-- The rows of format A (R111). -/
def formatA : Vector (Byte → Instr) 16 :=
  #v[.aNop, .aTxEnq, .aTxCount, .aTxFull, .aRxDeq, .aRxCount, .aErrRead, .aErrClr, .aReserved8, .aReserved9,
    .aReservedA, .aReservedB, .aReservedC, .aReservedD, .aReservedE, .aReservedF]

/-- The rows of format S (R112). -/
def formatS : Vector (Byte → Instr) 16 :=
  #v[.sNop, .sIsr, .sTxDeq, .sRxEnq, .sTxCount, .sTxFull, .sReserved6, .sReserved7, .sReserved8, .sReserved9,
    .sReservedA, .sReservedB, .sReservedC, .sReservedD, .sReservedE, .sReservedF]

/-- The command that stands in row `op` of the table of port `p`, with the byte `d`. -/
def commandAt (p : Port) (op : BitVec 4) (d : Byte) : Instr :=
  match p with
  | .app => formatA[op.toNat] d
  | .ser => formatS[op.toNat] d

/-- Every instruction stands in the table of its port, in the row of its operation code. -/
theorem commandAt_fields (i : Instr) : commandAt i.port (opcodeOf i) (byteOf i) = i := by
  cases i <;> rfl

theorem decode_eq_commandAt (p : Port) (w : Cmd) : decode p w = commandAt p (opField w) (byteField w) := by
  obtain ⟨hp, ho, hb⟩ := decode_fields p w
  rw [← commandAt_fields (decode p w), hp, ho, hb]

theorem decode_append (p : Port) (op : BitVec 4) (d : Byte) : decode p (op ++ d) = commandAt p op d := by
  rw [decode_eq_commandAt, opField_append, byteField_append]

/-- Settles O2: each word decodes to the row of its operation code. -/
theorem operationCodeTables : Obligations.OperationCodeTables := by
  intro d
  have app (op : BitVec 4) : decode .app (op ++ d) = formatA[op.toNat] d := decode_append .app op d
  have ser (op : BitVec 4) : decode .ser (op ++ d) = formatS[op.toNat] d := decode_append .ser op d
  exact ⟨⟨app 0x0, app 0x1, app 0x2, app 0x3, app 0x4, app 0x5, app 0x6, app 0x7,
      app 0x8, app 0x9, app 0xA, app 0xB, app 0xC, app 0xD, app 0xE, app 0xF⟩,
    ser 0x0, ser 0x1, ser 0x2, ser 0x3, ser 0x4, ser 0x5, ser 0x6, ser 0x7,
    ser 0x8, ser 0x9, ser 0xA, ser 0xB, ser 0xC, ser 0xD, ser 0xE, ser 0xF⟩

/-! ### The byte of a command without a byte operand (30_encoding.md R114) -/

/-- Only `A_TX_ENQ` and `S_RX_ENQ` read their byte: any other command may carry any byte. -/
theorem exec_commandAt_opcodeOf {i : Instr} (hA : ¬ (i.port = .app ∧ opcodeOf i = 1))
    (hS : ¬ (i.port = .ser ∧ opcodeOf i = 3)) (d : Byte) (s : State) :
    exec (commandAt i.port (opcodeOf i) d) s = exec i s := by
  cases i with
  | aTxEnq _ => exact absurd ⟨rfl, rfl⟩ hA
  | sRxEnq _ => exact absurd ⟨rfl, rfl⟩ hS
  | _ => rfl

/-- Settles O4: the word with `d'` is the command of the word with `d`, carrying `d'`. -/
theorem unusedByteHasNoEffect : Obligations.UnusedByteHasNoEffect := by
  intro p op d d' s hA hS
  obtain ⟨hp, ho, -⟩ := decode_fields p (op ++ d)
  rw [opField_append] at ho
  have h := exec_commandAt_opcodeOf (i := decode p (op ++ d)) (by rwa [hp, ho]) (by rwa [hp, ho]) d' s
  rw [hp, ho] at h
  rw [decode_append p op d', h]

end Sys2Proof.Machine

/-! SUPPORT. The statements of 40_app_port.md: the reserved operation codes and the no-operations of both ports. -/

namespace Sys2Proof.Machine

/-! ### Reserved operation codes (40_app_port.md R159; 41_serial_port.md R210) -/

/-- Format A has a meaning for the codes below 0x8 only (R111). -/
theorem exec_reserved_app {i : Instr} (hp : i.port = .app) (ho : 8 ≤ (opcodeOf i).toNat) (s : State) :
    exec i s = .next s.reservedA := by
  cases i with
  | aReserved8 _ | aReserved9 _ | aReservedA _ | aReservedB _ | aReservedC _ | aReservedD _ | aReservedE _
  | aReservedF _ => rfl
  | aNop _ | aTxEnq _ | aTxCount _ | aTxFull _ | aRxDeq _ | aRxCount _ | aErrRead _ | aErrClr _ =>
    simp [opcodeOf] at ho
  | _ => cases hp

/-- Format S has a meaning for the codes below 0x6 only (R112). -/
theorem exec_reserved_ser {i : Instr} (hp : i.port = .ser) (ho : 6 ≤ (opcodeOf i).toNat) (s : State) :
    exec i s = .next s.reservedS := by
  cases i with
  | sReserved6 _ | sReserved7 _ | sReserved8 _ | sReserved9 _ | sReservedA _ | sReservedB _ | sReservedC _
  | sReservedD _ | sReservedE _ | sReservedF _ => rfl
  | sNop _ | sIsr _ | sTxDeq _ | sRxEnq _ | sTxCount _ | sTxFull _ => simp [opcodeOf] at ho
  | _ => cases hp

/-- Of a reserved code's response only bit 18 is up (R116). -/
theorem Response.pack_ill : Response.pack { val := 0, f0 := false, f1 := false, ill := true } = 0x40000#19 := by
  decide

/-- Settles O5: the listed commands and the words are those of a port whose code its format reserves. -/
theorem reservedCodesOnlySetIll : Obligations.ReservedCodesOnlySetIll := by
  refine fun d s => ⟨fun i hi => ?_, fun i hi => ?_, fun w hw => ?_, fun w hw => ?_⟩
  · obtain ⟨hp, ho⟩ : i.port = .app ∧ 8 ≤ (opcodeOf i).toNat := by
      revert i
      simp [Instr.port, opcodeOf]
    exact exec_reserved_app hp ho s
  · obtain ⟨hp, ho⟩ : i.port = .ser ∧ 6 ≤ (opcodeOf i).toNat := by
      revert i
      simp [Instr.port, opcodeOf]
    exact exec_reserved_ser hp ho s
  · obtain ⟨hp, ho, -⟩ := decode_fields .app w
    exact ⟨_, exec_reserved_app hp (ho ▸ hw) s, Response.pack_ill⟩
  · obtain ⟨hp, ho, -⟩ := decode_fields .ser w
    exact ⟨_, exec_reserved_ser hp (ho ▸ hw) s, Response.pack_ill⟩

/-! ### The no-operations (40_app_port.md R151; 41_serial_port.md R205) -/

theorem exec_aNop (d : Byte) (s : State) : exec (.aNop d) s = .next (s.rspA 0 false false false) := rfl

theorem exec_sNop (d : Byte) (s : State) : exec (.sNop d) s = .next (s.rspS 0 false false false) := rfl

/-- Settles O9: both words hold the code 0, and the commands write their port's response registers. -/
theorem nopsOnlyAnswer : Obligations.NopsOnlyAnswer := fun d s =>
  ⟨(Laws.EncodedFields.aNop d).1, (Laws.EncodedFields.sNop d).1, exec_aNop d s, exec_sNop d s⟩

end Sys2Proof.Machine

/-! SUPPORT. The statements of 42_cdc_steps.md: where each internal step is enabled, and what it does there. -/

namespace Sys2Proof.Machine

/-! ### Where an internal step is enabled (42_cdc_steps.md R263) -/

section
variable {s : State} {k : InternalStep}

theorem stepEvent_internal_of_enabled (hr : s.inReset = false) (h : s.internalEnabled k = true) :
    stepEvent (.internal k) s = .next (s.internalEffect k) := by
  rw [stepEvent_running hr, runEvent, State.internalStep, if_pos h]

theorem stepEvent_internal_of_not_enabled (hr : s.inReset = false) (h : ¬ s.internalEnabled k = true) :
    stepEvent (.internal k) s = .next s := by
  rw [stepEvent_running hr, runEvent, State.internalStep, if_neg h]

end

/-- A flush is outstanding where the view of its acknowledge lags behind (R37). -/
theorem Fifo.flushOutstanding_iff {f : Fifo} : f.flushOutstanding = true ↔ f.flReq ≠ f.fa := bne_iff_ne

theorem Fifo.flushOutstanding_eq_false_iff {f : Fifo} : f.flushOutstanding = false ↔ f.flReq = f.fa :=
  bne_eq_false_iff_eq

theorem Fifo.lim_eq (f : Fifo) : f.lim = if f.flReq ≠ f.fa then f.flMark else f.wptr :=
  if_congr Fifo.flushOutstanding_iff rfl rfl

/-- The draws of R253 and R254. -/
theorem drawAdmitted_iff {aw v : Nat} {view pub : Ptr} :
    drawAdmitted aw v view pub = true ↔ v < ptrModulus aw ∧ 1 ≤ dist aw (BitVec.ofNat 16 v) view ∧
      dist aw (BitVec.ofNat 16 v) view ≤ dist aw pub view :=
  ⟨drawAdmitted_spec, fun ⟨hv, hlow, hhigh⟩ => by simp [drawAdmitted, hv, hlow, hhigh]⟩

section
variable {s : State} {f : FifoId} {v : Nat}

theorem State.internalEnabled_wPub_iff :
    s.internalEnabled (.wPub f) = true ↔ (s.fifo f).wpub ≠ (s.fifo f).lim := bne_iff_ne

theorem State.internalEnabled_rPub_iff :
    s.internalEnabled (.rPub f) = true ↔ (s.fifo f).rpub ≠ (s.fifo f).rhead := bne_iff_ne

theorem State.internalEnabled_syncR2W_iff :
    s.internalEnabled (.syncR2W f v) = true ↔
      (s.fifo f).rqb ≠ (s.fifo f).rpub ∧ drawAdmitted (s.fifo f).aw v (s.fifo f).rqb (s.fifo f).rpub = true :=
  (Bool.and_eq_true_iff ..).trans (and_congr_left' bne_iff_ne)

theorem State.internalEnabled_syncW2R_iff :
    s.internalEnabled (.syncW2R f v) = true ↔
      (s.fifo f).wqb ≠ (s.fifo f).wpub ∧ drawAdmitted (s.fifo f).aw v (s.fifo f).wqb (s.fifo f).wpub = true :=
  (Bool.and_eq_true_iff ..).trans (and_congr_left' bne_iff_ne)

theorem State.internalEnabled_capture_iff :
    s.internalEnabled (.capture f) = true ↔ (s.fifo f).fr ≠ (s.fifo f).flReq := bne_iff_ne

theorem State.internalEnabled_ackSync_iff :
    s.internalEnabled (.ackSync f) = true ↔ (s.fifo f).fa ≠ (s.fifo f).flAck := bne_iff_ne

theorem State.internalEnabled_errRxSync_iff : s.internalEnabled .errRxSync = true ↔ s.errRxQ ≠ s.errRx := bne_iff_ne

theorem State.internalEnabled_ecReqSync_iff : s.internalEnabled .ecReqSync = true ↔ s.ecReqQ ≠ s.ecReq := bne_iff_ne

theorem State.internalEnabled_ecAckSync_iff : s.internalEnabled .ecAckSync = true ↔ s.ecAckQ ≠ s.ecAck := bne_iff_ne

end

/-! ### The publish steps (R251, R252) -/

/-- Settles O21: `lim` is the publish limit, and the gray outputs are read from the published pointers. -/
theorem publishSteps : Obligations.PublishSteps := by
  intro f s hr
  rw [← Fifo.lim_eq]
  refine ⟨by cases f <;> exact ⟨rfl, rfl⟩, fun h => ?_, fun h => ?_, fun h => ?_, fun h => ?_⟩
  · exact ⟨_, stepEvent_internal_of_enabled hr (State.internalEnabled_wPub_iff.mpr h), rfl,
      by simp [State.internalEffect, Fifo.wgray]⟩
  · exact stepEvent_internal_of_not_enabled hr fun he => State.internalEnabled_wPub_iff.mp he h
  · exact ⟨_, stepEvent_internal_of_enabled hr (State.internalEnabled_rPub_iff.mpr h), rfl,
      by simp [State.internalEffect, Fifo.rgray]⟩
  · exact stepEvent_internal_of_not_enabled hr fun he => State.internalEnabled_rPub_iff.mp he h

/-! ### The helpers `ADVANCE` and `FLUSH_REQ` (R255, R256) -/

theorem Fifo.advance_eq (f : Fifo) :
    f.advance = if dist f.aw f.target f.rhead ≤ dist f.aw f.wqb f.rhead then
      { f with rhead := f.target, drain := false } else { f with rhead := f.wqb } := by
  rcases f.advance_cases with ⟨h, e⟩ | ⟨h, e⟩
  · rw [e, if_pos h]
  · rw [e, if_neg h.not_ge]

theorem Fifo.flushReq_eq (f : Fifo) :
    f.flushReq = if f.flReq = f.fa then { f with flMark := f.wptr, flReq := !f.flReq }
      else { f with flNext := f.wptr, flPend := true } := by
  rcases f.flushReq_cases with ⟨h, e⟩ | ⟨h, e⟩
  · rw [e, if_pos (Fifo.flushOutstanding_eq_false_iff.mp h)]
  · rw [e, if_neg (Fifo.flushOutstanding_iff.mp h)]

/-- Settles O23: the model's two helpers, case by case. -/
theorem advanceAndFlushRequest : Obligations.AdvanceAndFlushRequest := fun f => ⟨f.advance_eq, f.flushReq_eq⟩

/-! ### The synchronisers (R253, R254) -/

/-- `ADVANCE` moves the read end within its view, which stays. -/
@[simp] theorem Fifo.advance_wq (f : Fifo) : f.advance.wq = f.wq := by
  rcases f.advance_cases with ⟨-, e⟩ | ⟨-, e⟩ <;> rw [e]

theorem Fifo.syncR2W_rqb (f : Fifo) (v : Nat) : (f.syncR2W v).rqb = BitVec.ofNat 16 v := ungray_gray _

/-- The view is the draw, whether or not the FIFO drains. -/
theorem Fifo.syncW2R_wqb (f : Fifo) (v : Nat) : (f.syncW2R v).wqb = BitVec.ofNat 16 v := by
  rcases f.syncW2R_cases v with ⟨-, e⟩ | ⟨-, e⟩ <;> simp [Fifo.wqb, e]

theorem Fifo.syncW2R_eq (f : Fifo) (v : Nat) :
    f.syncW2R v = if f.drain then Fifo.advance { f with wq := gray (BitVec.ofNat 16 v) }
      else { f with wq := gray (BitVec.ofNat 16 v) } := by
  rcases f.syncW2R_cases v with ⟨h, e⟩ | ⟨h, e⟩ <;> simp [e, h]

@[simp] theorem State.armIfTx_fifo (s : State) (f g : FifoId) : (s.armIfTx f).fifo g = s.fifo g := by
  cases g <;> simp

theorem State.armIfTx_eq (s : State) (f : FifoId) : s.armIfTx f = { s with armed := s.armed || f == .tx } := by
  cases f with
  | tx => simp [State.armIfTx]
  | rx => exact congrArg (fun b => { s with armed := b }) (Bool.or_false s.armed).symm

/-- What a step of the read domain does that observes an enqueue (R254, R257): it replaces its FIFO, and arms for
TXF. -/
theorem exists_next_of_arming {s : State} {k : InternalStep} {f : FifoId} {x : Fifo} (hr : s.inReset = false)
    (h : s.internalEnabled k = true) (heff : s.internalEffect k = (s.setFifo f x).armIfTx f) :
    ∃ t, stepEvent (.internal k) s = .next t ∧ t.fifo f = x ∧
      t = { s.setFifo f (t.fifo f) with armed := s.armed || f == .tx } := by
  have hx : (s.internalEffect k).fifo f = x := by rw [heff, State.armIfTx_fifo, State.setFifo_fifo]
  refine ⟨_, stepEvent_internal_of_enabled hr h, hx, ?_⟩
  rw [hx, heff, State.armIfTx_eq, State.setFifo_armed]

/-- Different pointer values are apart. -/
theorem one_le_dist {aw : Nat} {a b : Ptr} (ha : inRange aw a = true) (hb : inRange aw b = true) (h : a ≠ b) :
    1 ≤ dist aw a b := by
  rw [inRange_iff] at ha hb
  have hne : a.toNat ≠ b.toNat := fun e => h (BitVec.eq_of_toNat_eq e)
  rw [dist_of_inRange ha hb]
  split <;> omega

/-- The draw that catches up is admitted wherever the view lags. -/
theorem drawAdmitted_source {aw : Nat} {view pub : Ptr} (hv : inRange aw view = true) (hp : inRange aw pub = true)
    (h : view ≠ pub) : drawAdmitted aw pub.toNat view pub = true := by
  rw [drawAdmitted_iff, BitVec.ofNat_toNat, BitVec.setWidth_eq]
  exact ⟨inRange_iff.mp hp, one_le_dist hp hv h.symm, le_rfl⟩

theorem State.Inv.fifo {s : State} (h : s.Inv) (f : FifoId) : (s.fifo f).Inv := by
  obtain ⟨htx, hrx, -⟩ := h
  cases f with
  | tx => exact htx
  | rx => exact hrx

/-- Settles O22: a draw is admitted by `drawAdmitted` and comes back whole from its gray code. -/
theorem synchroniserDraws : Obligations.SynchroniserDraws := by
  intro f v s hr x p r2w w2r
  have r2w_iff : s.internalEnabled (.syncR2W f v) = true ↔ x.rqb ≠ x.rpub ∧ r2w :=
    State.internalEnabled_syncR2W_iff.trans (and_congr_right' drawAdmitted_iff)
  have w2r_iff : s.internalEnabled (.syncW2R f v) = true ↔ x.wqb ≠ x.wpub ∧ w2r :=
    State.internalEnabled_syncW2R_iff.trans (and_congr_right' drawAdmitted_iff)
  refine ⟨by cases f <;> exact ⟨rfl, rfl⟩, fun hne hd => ?_, fun h => ?_, fun hne hd => ?_, fun h => ?_, fun hinv => ?_⟩
  · refine ⟨_, stepEvent_internal_of_enabled hr (r2w_iff.mpr ⟨hne, hd⟩), rfl, ?_⟩
    rw [State.internalEffect, State.setFifo_fifo]
    exact x.syncR2W_rqb v
  · exact stepEvent_internal_of_not_enabled hr (mt r2w_iff.mp h)
  · obtain ⟨t, ht, hx, hframe⟩ := exists_next_of_arming hr (w2r_iff.mpr ⟨hne, hd⟩) rfl
    exact ⟨t, ht, hx.trans (x.syncW2R_eq v), hx ▸ x.syncW2R_wqb v, hframe⟩
  · exact stepEvent_internal_of_not_enabled hr (mt w2r_iff.mp h)
  · obtain ⟨⟨⟨-, hwpub, hrq, -, -, -, hrpub, hwq, -⟩, -⟩, -⟩ := hinv.fifo f
    exact ⟨fun h => State.internalEnabled_syncR2W_iff.mpr ⟨h, drawAdmitted_source (inRange_ungray hrq) hrpub h⟩,
      fun h => State.internalEnabled_syncW2R_iff.mpr ⟨h, drawAdmitted_source (inRange_ungray hwq) hwpub h⟩⟩

/-! ### The flush handshake (R257, R258) -/

theorem Fifo.capture_eq (f : Fifo) :
    f.capture = if f.flMark = f.rhead then
        { f with fr := f.flReq, target := f.flMark, flAck := f.flReq, drain := false }
      else Fifo.advance { f with fr := f.flReq, target := f.flMark, flAck := f.flReq, drain := true } := by
  rcases f.capture_cases with ⟨h, e⟩ | ⟨h, e⟩
  · rw [e, if_pos h]
  · rw [e, if_neg h]

theorem Fifo.ackSync_eq (f : Fifo) :
    f.ackSync = if f.flAck = f.flReq ∧ f.flPend = true then
        { f with fa := f.flAck, flMark := f.flNext, flReq := !f.flReq, flPend := false }
      else { f with fa := f.flAck } := by
  rcases f.ackSync_cases with ⟨hack, hpend, e⟩ | ⟨h, e⟩
  · rw [e, if_pos ⟨hack, hpend⟩]
  · rw [e, if_neg h]

/-- Settles O24: `CAPTURE` arms as a view update does, and `ACK_SYNC` writes its FIFO only. -/
theorem flushHandshakeSteps : Obligations.FlushHandshakeSteps := by
  intro f s hr x
  refine ⟨by cases f <;> exact ⟨rfl, rfl⟩, fun h => ?_, fun h => ?_, fun h => ?_, fun h => ?_⟩
  · obtain ⟨t, ht, hx, hframe⟩ := exists_next_of_arming hr (State.internalEnabled_capture_iff.mpr h) rfl
    exact ⟨t, ht, hx.trans x.capture_eq, hframe⟩
  · exact stepEvent_internal_of_not_enabled hr fun he => State.internalEnabled_capture_iff.mp he h
  · rw [← x.ackSync_eq]
    exact stepEvent_internal_of_enabled hr (State.internalEnabled_ackSync_iff.mpr h)
  · exact stepEvent_internal_of_not_enabled hr fun he => State.internalEnabled_ackSync_iff.mp he h

/-! ### The error latch and its clear (R259, R260, R261) -/

theorem State.ecAckSync_eq (s : State) :
    s.ecAckSync = if s.ecAck = s.ecReq ∧ s.ecPend = true then
        { s with ecAckQ := s.ecAck, ecReq := !s.ecReq, ecPend := false }
      else { s with ecAckQ := s.ecAck } := by
  rcases s.ecAckSync_cases with ⟨hack, hpend, e⟩ | ⟨h, e⟩
  · rw [e, if_pos ⟨hack, hpend⟩]
  · rw [e, if_neg h]

/-- Where the view has caught up with the latch, sampling it again changes nothing. -/
theorem State.errRxSync_eq_self {s : State} (h : s.errRxQ = s.errRx) : s.errRxSync = s :=
  congrArg (fun q => { s with errRxQ := q }) h.symm

/-- `ERR_RX_SYNC` has one effect, enabled or not. -/
theorem stepEvent_errRxSync {s : State} (hr : s.inReset = false) :
    stepEvent (.internal .errRxSync) s = .next s.errRxSync := by
  by_cases h : s.errRxQ = s.errRx
  · rw [State.errRxSync_eq_self h]
    exact stepEvent_internal_of_not_enabled hr fun he => State.internalEnabled_errRxSync_iff.mp he h
  · exact stepEvent_internal_of_enabled hr (State.internalEnabled_errRxSync_iff.mpr h)

/-- Settles O25: `ERR_RX_SYNC` has its effect in every state, the other two where they are enabled. -/
theorem errorHandshakeSteps : Obligations.ErrorHandshakeSteps := by
  intro s hr
  refine ⟨⟨rfl, rfl, rfl⟩, State.internalEnabled_errRxSync_iff, stepEvent_errRxSync hr, fun h => ?_, fun h => ?_,
    fun h => ?_, fun h => ?_⟩
  · exact stepEvent_internal_of_enabled hr (State.internalEnabled_ecReqSync_iff.mpr h)
  · exact stepEvent_internal_of_not_enabled hr fun he => State.internalEnabled_ecReqSync_iff.mp he h
  · rw [← s.ecAckSync_eq]
    exact stepEvent_internal_of_enabled hr (State.internalEnabled_ecAckSync_iff.mpr h)
  · exact stepEvent_internal_of_not_enabled hr fun he => State.internalEnabled_ecAckSync_iff.mp he h

end Sys2Proof.Machine

/-! SUPPORT. The statements of 60_exceptions.md: the transmit-empty enable, the interrupt condition, the peripheral. -/

namespace Sys2Proof.Machine

/-! ### Which commands take from a FIFO's read end, by port and code -/

/-- The command takes from the read end of `f` (R155, R202, R204, R206). -/
def takesFrom (f : FifoId) (i : Instr) (s : State) : Bool :=
  match f, i.port with
  | .tx, .ser => opcodeOf i == 2 || (opcodeOf i == 1 && s.txp)
  | .rx, .app => opcodeOf i == 4
  | _, _ => false

theorem asksFor_appCmd {s : State} (h : s.inReset = false) (f : FifoId) (w : Cmd) :
    asksFor f (.appCmd w) s = takesFrom f (decode .app w) s := by
  obtain ⟨hp, ho, -⟩ := decode_fields .app w
  cases f <;> simp [asksFor, takesFrom, h, hp, ho]

theorem asksFor_serCmd_external {s : State} (h : s.inReset = false) (hm : s.serMode = .external) (f : FifoId)
    (w : Cmd) : asksFor f (.serCmd w) s = takesFrom f (decode .ser w) s := by
  obtain ⟨hp, ho, -⟩ := decode_fields .ser w
  cases f <;> simp [asksFor, takesFrom, h, hm, hp, ho]

theorem asksFor_serCmd_auto {s : State} (hm : s.serMode = .auto) (f : FifoId) (w : Cmd) :
    asksFor f (.serCmd w) s = false := by
  cases f <;> simp [asksFor, hm]

theorem asksFor_dispatch_enabled {s : State} (h : s.inReset = false) (hd : s.dispatchEnabled = true) (f : FifoId) :
    asksFor f .dispatch s = takesFrom f (.sIsr 0) s := by
  cases f <;> simp [asksFor, takesFrom, Instr.port, opcodeOf, h, hd]

theorem asksFor_dispatch_disabled {s : State} (hd : s.dispatchEnabled = false) (f : FifoId) :
    asksFor f .dispatch s = false := by
  cases f <;> simp [asksFor, hd]

theorem asksFor_inReset {s : State} (h : s.inReset = true) (f : FifoId) (e : Event) : asksFor f e s = false := by
  simp [asksFor, h]

@[simp] theorem asksFor_internal (f : FifoId) (k : InternalStep) (s : State) : asksFor f (.internal k) s = false := by
  cases f <;> simp [asksFor]

theorem isResetEvent_eq_false_of_asksFor {f : FifoId} {e : Event} {s : State} (h : asksFor f e s = true) :
    isResetEvent e = false := by
  cases e with
  | resetPins a b => cases f <;> simp [asksFor] at h
  | internal k => simp at h
  | _ => rfl

theorem Fifo.rempty_iff {f : Fifo} : f.rempty = true ↔ f.rcount = 0 := beq_iff_eq

/-! ### The armed/quiescent machine (R305): what each operation makes of `armed` -/

@[simp] theorem State.txEnq_armed (s : State) (b : Byte) : (s.txEnq b).2.armed = s.armed := by
  rcases s.txEnq_cases b with ⟨-, e⟩ | ⟨-, e⟩ <;> rw [e]

@[simp] theorem State.rxEnq_armed (s : State) (b : Byte) : (s.rxEnq b).2.armed = s.armed := by
  rcases s.rxEnq_cases b with ⟨-, e⟩ | ⟨-, e⟩ <;> rw [e]

@[simp] theorem State.rxDeq_armed (s : State) : s.rxDeq.2.armed = s.armed := by
  rcases s.rxDeq_cases with ⟨-, e⟩ | ⟨-, e⟩ <;> rw [e]

/-- `TXDEQ()` disarms where the view is empty (R202). -/
theorem State.txDeq_armed (s : State) : s.txDeq.2.armed = (s.armed && !s.txf.rempty) := by
  rcases s.txDeq_cases with ⟨h, e⟩ | ⟨h, e⟩ <;> simp [e, h]

@[simp] theorem State.requestErrClear_armed (s : State) : s.requestErrClear.armed = s.armed := by
  rcases s.requestErrClear_cases with ⟨-, e⟩ | ⟨-, e⟩ <;> rw [e]

@[simp] theorem State.ecAckSync_armed (s : State) : s.ecAckSync.armed = s.armed := by
  rcases s.ecAckSync_cases with ⟨-, -, e⟩ | ⟨-, e⟩ <;> rw [e]

/-- Check 1 of `S_ISR` disarms as `TXDEQ()` does (R204). -/
theorem State.serveTx_armed (s : State) : s.serveTx.2.armed = (s.armed && !s.txf.rempty) := by
  rcases s.serveTx_cases with ⟨h, e⟩ | ⟨h, e⟩ <;> simp [e, h]

@[simp] theorem State.serveRx_armed (s : State) : s.serveRx.2.armed = s.armed := by
  rcases s.serveRx_cases.2 with ⟨-, e⟩ | ⟨-, e⟩ <;> rw [e]

theorem execSIsr_armed (d : Byte) (s : State) :
    ∃ t, execSIsr d s = .next t ∧ t.armed = (s.armed && !(s.txp && s.txf.rempty)) := by
  rcases execSIsr_cases d s with ⟨ht, -, e⟩ | ⟨ht, -, e⟩ | ⟨ht, -, e⟩ | ⟨ht, -, e⟩ <;> refine ⟨_, e, ?_⟩
  · simp [ht]
  · simp [ht, State.serveTx_armed]
  · simp [ht]
  · simp [ht, State.serveTx_armed]

/-- Every command completes, and disarms exactly where it takes from an empty view of TXF. -/
theorem exec_armed (i : Instr) (s : State) :
    ∃ t, exec i s = .next t ∧ t.armed = (s.armed && !(takesFrom .tx i s && s.txf.rempty)) := by
  have keeps (h : takesFrom .tx i s = false) : s.armed = (s.armed && !(takesFrom .tx i s && s.txf.rempty)) := by
    simp [h]
  cases i with
  | aTxEnq b => exact ⟨_, rfl, (s.txEnq_armed b).trans (keeps rfl)⟩
  | aRxDeq _ => exact ⟨_, rfl, s.rxDeq_armed.trans (keeps rfl)⟩
  | aErrClr _ => exact ⟨_, rfl, (State.requestErrClear_armed _).trans (keeps rfl)⟩
  | sIsr d =>
    obtain ⟨t, ht, ha⟩ := execSIsr_armed d s
    exact ⟨t, ht, by simpa [takesFrom, Instr.port, opcodeOf] using ha⟩
  | sTxDeq _ => exact ⟨_, rfl, s.txDeq_armed⟩
  | sRxEnq b => exact ⟨_, rfl, (s.rxEnq_armed b).trans (keeps rfl)⟩
  | _ => exact ⟨_, rfl, keeps rfl⟩

/-- The internal steps by which the SER domain observes an enqueue of TXF (R254, R257). -/
def observesTx (k : InternalStep) : Bool :=
  match k with
  | .syncW2R f _ | .capture f => f == .tx
  | _ => false

theorem observesTx_iff {k : InternalStep} : observesTx k = true ↔ (∃ v, k = .syncW2R .tx v) ∨ k = .capture .tx := by
  cases k <;> simp [observesTx]

theorem State.internalEffect_armed (s : State) (k : InternalStep) :
    (s.internalEffect k).armed = (s.armed || observesTx k) := by
  cases k with
  | syncW2R f v | capture f => simp [State.internalEffect, State.armIfTx_eq, observesTx]
  | errRxSync | ecReqSync => exact (Bool.or_false _).symm
  | _ => simp [State.internalEffect, observesTx]

/-- The event is an enabled step by which the SER domain observes an enqueue of TXF: what arms (R305). -/
def armsTx (e : Event) (s : State) : Bool :=
  match e with
  | .internal k => !s.inReset && observesTx k && s.internalEnabled k
  | _ => false

theorem armsTx_inReset {s : State} (h : s.inReset = true) (e : Event) : armsTx e s = false := by
  cases e <;> simp [armsTx, h]

/-- The two arming rows of R305. -/
theorem armsTx_iff {e : Event} {s : State} :
    armsTx e s = true ↔ s.inReset = false ∧
      ((∃ v, e = .internal (.syncW2R .tx v) ∧ s.internalEnabled (.syncW2R .tx v) = true) ∨
        (e = .internal (.capture .tx) ∧ s.internalEnabled (.capture .tx) = true)) := by
  cases e with
  | internal k =>
    simp only [armsTx, Bool.and_eq_true, Bool.not_eq_true', observesTx_iff, Event.internal.injEq, and_assoc]
    refine and_congr_right' ⟨?_, ?_⟩
    · rintro ⟨⟨v, rfl⟩ | rfl, h⟩
      · exact .inl ⟨v, rfl, h⟩
      · exact .inr ⟨rfl, h⟩
    · rintro (⟨v, rfl, h⟩ | ⟨rfl, h⟩)
      · exact ⟨.inl ⟨v, rfl⟩, h⟩
      · exact ⟨.inr rfl, h⟩
  | _ => simp [armsTx]

/-- The table of R305 in one equation, for a running block. -/
theorem runEvent_armed {e : Event} {s : State} (hr : s.inReset = false) (he : isResetEvent e = false) :
    ∃ t, runEvent e s = .next t ∧
      t.armed = ((s.armed || armsTx e s) && !(asksFor .tx e s && s.txf.rempty)) := by
  cases e with
  | appCmd w => simpa [runEvent, acceptApp, armsTx, asksFor_appCmd hr] using exec_armed (decode .app w) s
  | serCmd w =>
    rcases acceptSer_cases w s with ⟨hm, e⟩ | ⟨hm, e⟩
    · simpa [runEvent, e, armsTx, asksFor_serCmd_external hr hm] using exec_armed (decode .ser w) s
    · exact ⟨s, e, by simp [armsTx, asksFor_serCmd_auto hm]⟩
  | dispatch =>
    rcases dispatcherTurn_cases s with ⟨hd, e⟩ | ⟨hd, e⟩
    · simpa [runEvent, e, armsTx, asksFor_dispatch_enabled hr hd] using exec_armed (.sIsr 0) s
    · exact ⟨s, e, by simp [armsTx, asksFor_dispatch_disabled hd]⟩
  | internal k =>
    refine ⟨_, rfl, ?_⟩
    rcases s.internalStep_cases k with ⟨h, e⟩ | ⟨h, e⟩
    · simp [e, armsTx, hr, h, s.internalEffect_armed]
    · simp [e, armsTx, h]
  | resetPins _ _ => cases he
  | appIdle | serIdle | periphTxc | periphRxa _ => exact ⟨_, rfl, by simp [armsTx, asksFor]⟩

/-- Every transition but a reset takes place, and only arming and taking from an empty view change `armed`. -/
theorem stepEvent_armed {e : Event} (s : State) (he : isResetEvent e = false) :
    ∃ t, stepEvent e s = .next t ∧
      t.armed = ((s.armed || armsTx e s) && !(asksFor .tx e s && s.txf.rempty)) := by
  cases hr : s.inReset with
  | false => exact stepEvent_running hr e ▸ runEvent_armed hr he
  | true => exact ⟨s, stepEvent_inReset hr he, by simp [armsTx_inReset hr, asksFor_inReset hr]⟩

theorem stepEvent_armed_of_armsTx {k : InternalStep} {s : State} (h : armsTx (.internal k) s = true) :
    ∃ t, stepEvent (.internal k) s = .next t ∧ t.armed = true := by
  have he : isResetEvent (.internal k) = false := by
    obtain ⟨-, ⟨v, hk, -⟩ | ⟨hk, -⟩⟩ := armsTx_iff.mp h <;> rw [hk] <;> rfl
  obtain ⟨t, ht, ha⟩ := stepEvent_armed s he
  exact ⟨t, ht, by simp [ha, h]⟩

/-- Settles O28: every row of the table is read off `stepEvent_armed`. -/
theorem armedStateMachine : Obligations.ArmedStateMachine := by
  refine ⟨fun _ => rfl, fun v s hr h => ?_, fun s hr h => ?_, fun e s ha h0 => ?_, fun e s t he ht hne => ?_⟩
  · exact stepEvent_armed_of_armsTx (armsTx_iff.mpr ⟨hr, .inl ⟨v, rfl, h⟩⟩)
  · exact stepEvent_armed_of_armsTx (armsTx_iff.mpr ⟨hr, .inr ⟨rfl, h⟩⟩)
  · obtain ⟨t, ht, hta⟩ := stepEvent_armed s (isResetEvent_eq_false_of_asksFor ha)
    exact ⟨t, ht, by simp [hta, ha, Fifo.rempty_iff.mpr h0]⟩
  · obtain ⟨u, hu, hta⟩ := stepEvent_armed s he
    cases hu.symm.trans ht
    cases hd : asksFor .tx e s && s.txf.rempty with
    | true =>
      obtain ⟨hask, hempty⟩ := Bool.and_eq_true_iff.mp hd
      exact .inr ⟨by simp [hta, hd], hask, Fifo.rempty_iff.mp hempty⟩
    | false =>
      cases harm : armsTx e s with
      | true => exact .inl ⟨by simp [hta, hd, harm], (armsTx_iff.mp harm).2⟩
      | false => exact absurd (by simp [hta, hd, harm]) hne

/-! ### The interrupt condition and the dispatcher (R306, R211) -/

theorem State.dispatchEnabled_iff {s : State} :
    s.dispatchEnabled = true ↔ s.serMode = .auto ∧ s.outputs.irq = true := by
  simp [State.dispatchEnabled, State.outputs]

section
variable {s : State}

theorem stepEvent_dispatch_of_enabled (hr : s.inReset = false) (h : s.dispatchEnabled = true) :
    stepEvent .dispatch s = exec (.sIsr 0) s := by
  rw [stepEvent_running hr, runEvent, dispatcherTurn, if_pos h]

theorem stepEvent_dispatch_of_not_enabled (hr : s.inReset = false) (h : ¬ s.dispatchEnabled = true) :
    stepEvent .dispatch s = .next s := by
  rw [stepEvent_running hr, runEvent, dispatcherTurn, if_neg h]

theorem stepEvent_serCmd_auto (hr : s.inReset = false) (hm : s.serMode = .auto) (w : Cmd) :
    stepEvent (.serCmd w) s = .next s := by
  rw [stepEvent_running hr, runEvent, acceptSer, hm]

end

/-- Settles O29: the dispatcher is enabled exactly in AUTO mode with `irq` up. -/
theorem interruptConditionDispatches : Obligations.InterruptConditionDispatches := by
  refine fun w s hr => ⟨rfl, rfl, fun hm hi => ?_, fun hm hi => ?_, fun hm => ?_, fun hm => ?_⟩
  · exact stepEvent_dispatch_of_enabled hr (State.dispatchEnabled_iff.mpr ⟨hm, hi⟩)
  · refine stepEvent_dispatch_of_not_enabled hr fun he => ?_
    obtain ⟨-, hirq⟩ := State.dispatchEnabled_iff.mp he
    exact Bool.false_ne_true (hi.symm.trans hirq)
  · refine stepEvent_dispatch_of_not_enabled hr fun he => ?_
    obtain ⟨hauto, -⟩ := State.dispatchEnabled_iff.mp he
    cases hm.symm.trans hauto
  · exact stepEvent_serCmd_auto hr hm w

/-! ### The reference peripheral (R313, R314) -/

section
variable {p : Periph}

theorem Periph.txc_of_taken (h : p.txe = false) : p.txc = { p with lineOut := p.lineOut ++ [p.tdr], txe := true } := by
  simp [Periph.txc, h]

theorem Periph.txc_of_empty (h : p.txe = true) : p.txc = p := if_pos h

theorem Periph.rxa_of_empty (h : p.rxne = false) (policy : RxOvrPolicy) (b : Byte) :
    p.rxa policy b = { p with lineIn := p.lineIn ++ [b], rdr := b, rxne := true } := by
  simp [Periph.rxa, h]

theorem Periph.rxa_keepOld (h : p.rxne = true) (b : Byte) :
    p.rxa .keepOld b = { p with lineIn := p.lineIn ++ [b], ore := true } := by
  simp [Periph.rxa, h]

theorem Periph.rxa_takeNew (h : p.rxne = true) (b : Byte) :
    p.rxa .takeNew b = { p with lineIn := p.lineIn ++ [b], ore := true, rdr := b } := by
  simp [Periph.rxa, h]

end

theorem stepEvent_periphTxc {s : State} (hr : s.inReset = false) :
    stepEvent .periphTxc s = .next { s with periph := s.periph.txc } := stepEvent_running hr _

theorem stepEvent_periphRxa {s : State} (hr : s.inReset = false) (b : Byte) :
    stepEvent (.periphRxa b) s = .next { s with periph := s.periph.rxa s.ovrPolicy b } := stepEvent_running hr _

/-- Settles O30: each step replaces the peripheral only, by what it makes of the register it finds. -/
theorem peripheralSteps : Obligations.PeripheralSteps := by
  refine ⟨rfl, fun b s hr => ?_⟩
  rw [stepEvent_periphTxc hr, stepEvent_periphRxa hr]
  refine ⟨fun h => ?_, fun h => ?_, fun h => ?_, fun h hp => ?_, fun h hp => ?_⟩
  · rw [Periph.txc_of_taken h]
  · rw [Periph.txc_of_empty h]
  · rw [Periph.rxa_of_empty h]
  · rw [hp, Periph.rxa_keepOld h]
  · rw [hp, Periph.rxa_takeNew h]

end Sys2Proof.Machine

/-! SUPPORT. The statements of 70_reset_and_hazards.md: the assertion of one reset input alone. -/

namespace Sys2Proof.Machine

/-! ### The reset inputs (R350, R351) -/

/-- The block runs exactly while both active-low inputs are high. -/
theorem State.inReset_eq_false_iff {s : State} : s.inReset = false ↔ s.rstAN = true ∧ s.rstSN = true := by
  simp [State.inReset]

/-- On a running block, levels that differ assert exactly one of the two inputs (R351). -/
theorem stepEvent_resetPins_of_ne {s : State} {a b : Bool} (hr : s.inReset = false) (hne : a ≠ b) :
    stepEvent (.resetPins a b) s = .refused .partialReset := by
  rcases s.setResetPins_cases a b with ⟨-, -, e⟩ | ⟨-, ha, hb, -⟩ | ⟨hheld | ⟨ha, hb⟩, -⟩
  · exact e
  · exact absurd (ha.trans hb.symm) hne
  · exact absurd (hr.symm.trans hheld) Bool.false_ne_true
  · exact absurd (ha.trans hb.symm) hne

/-- Settles O35: both inputs high is a running block, and each of the two changes brings the levels apart. -/
theorem partialResetRefused : Obligations.PartialResetRefused := by
  intro s ha hs
  have hr : s.inReset = false := State.inReset_eq_false_iff.mpr ⟨ha, hs⟩
  exact ⟨stepEvent_resetPins_of_ne hr Bool.false_ne_true, stepEvent_resetPins_of_ne hr Bool.false_ne_true.symm⟩

end Sys2Proof.Machine

/-! SUPPORT. Words and pointers: decoding and encoding agree (30_encoding.md), and pointer arithmetic in increments
(00_scope.md R15). -/

namespace Sys2Proof.Machine

/-! ### Decoding and encoding (30_encoding.md R110, R123) -/

/-- An instruction is read back on the port whose format it belongs to. -/
theorem decode_encode (i : Instr) : decode i.port (encode i) = i := by
  obtain ⟨ho, hb⟩ := Laws.EncodedFields.of_any i
  rw [decode_eq_commandAt, ho, hb, commandAt_fields]

/-- A word is its two fields (R110). -/
theorem opField_append_byteField (w : Cmd) : opField w ++ byteField w = w := by
  apply BitVec.eq_of_getLsbD_eq
  intro k hk
  rw [BitVec.getLsbD_append, opField, byteField]
  split
  · simp [*]
  · rename_i h
    simp [show k - 8 < 4 by omega, Nat.add_sub_cancel' (Nat.le_of_not_lt h)]

theorem encode_decode (p : Port) (w : Cmd) : encode (decode p w) = w := by
  obtain ⟨-, ho, hb⟩ := decode_fields p w
  rw [encode, ho, hb, opField_append_byteField]

/-- Settles O1: an instruction and a word are both determined by operation code and byte. -/
theorem encodeDecodeAgree : Obligations.EncodeDecodeAgree := by
  refine ⟨fun p i h => ?_, fun p w => ⟨?_, encode_decode p w⟩⟩
  · obtain rfl : i.port = p := beq_iff_eq.mp h
    exact decode_encode i
  · exact beq_iff_eq.mpr (decode_fields p w).1

/-- Settles O3: each written word is an operation code and a byte of its port's table. -/
theorem writtenWordsDecode : Obligations.WrittenWordsDecode :=
  ⟨decode_append .app 0x1 0x41, decode_append .app 0x1 0xFF, decode_append .app 0x2 0xAB, decode_append .app 0x6 0,
    decode_append .app 0x9 0xAB, decode_append .app 0xF 0xFF, decode_append .ser 0x1 0x41, decode_append .ser 0x3 0x10,
    decode_append .ser 0x5 0xAB, decode_append .ser 0x6 0, decode_append .ser 0xF 0xFF⟩

/-- Settles O6: the three flags stand in front of `val`, one bit each. -/
theorem responseWordLayout : Obligations.ResponseWordLayout := by
  intro r
  refine ⟨BitVec.extractLsb'_append_eq_right, ?_, ?_, ?_⟩
  all_goals
    change BitVec.getLsbD (w := 1 + 1 + 1 + 16) r.pack _ = _
    simp only [Response.pack, BitVec.getLsbD_append]
    simp

/-! ### Pointers in increments (00_scope.md R15) -/

section
variable {aw : Fin 16} {a b c o p : Ptr} {j k m n : Nat}

theorem slotCount_dvd_ptrModulus (aw : Nat) : slotCount aw ∣ ptrModulus aw := ⟨2, by rw [ptrModulus_eq, Nat.mul_comm]⟩

theorem ptrSucc_eq_ptrAdd (aw : Nat) (p : Ptr) : ptrSucc aw p = ptrAdd aw p 1 := rfl

theorem toNat_ptrAdd (aw : Fin 16) (p : Ptr) (k : Nat) : (ptrAdd aw p k).toNat = (p.toNat + k) % ptrModulus aw := by
  rw [ptrAdd, BitVec.toNat_ofNat]
  exact Nat.mod_eq_of_lt (Nat.lt_of_lt_of_le (Nat.mod_lt _ (ptrModulus_pos aw)) (ptrModulus_le aw))

@[simp] theorem inRange_ptrAdd (aw : Fin 16) (p : Ptr) (k : Nat) : inRange aw (ptrAdd aw p k) = true := by
  rw [inRange_iff, toNat_ptrAdd]
  exact Nat.mod_lt _ (ptrModulus_pos aw)

theorem ptrAdd_ptrAdd (aw : Fin 16) (p : Ptr) (j k : Nat) : ptrAdd aw (ptrAdd aw p j) k = ptrAdd aw p (j + k) := by
  apply BitVec.eq_of_toNat_eq
  rw [toNat_ptrAdd, toNat_ptrAdd, toNat_ptrAdd, Nat.mod_add_mod, Nat.add_assoc]

theorem ptrAdd_zero (h : inRange aw p = true) : ptrAdd aw p 0 = p := by
  apply BitVec.eq_of_toNat_eq
  rw [toNat_ptrAdd, Nat.add_zero, Nat.mod_eq_of_lt (inRange_iff.mp h)]

/-- `k` increments lie at distance `k`, up to the modulus. -/
theorem dist_ptrAdd_self (aw : Fin 16) (p : Ptr) (k : Nat) : dist aw (ptrAdd aw p k) p = k % ptrModulus aw := by
  have hlt := Nat.mod_lt p.toNat (ptrModulus_pos aw)
  have e : p.toNat + k + (ptrModulus aw - p.toNat % ptrModulus aw) =
      k + ptrModulus aw * (p.toNat / ptrModulus aw + 1) := by
    have := Nat.mod_add_div p.toNat (ptrModulus aw)
    rw [Nat.mul_add, Nat.mul_one]
    omega
  rw [dist, toNat_ptrAdd, Nat.mod_add_mod, e, Nat.add_mul_mod_self_left]

theorem dist_ptrAdd_of_lt (p : Ptr) (h : k < ptrModulus aw) : dist aw (ptrAdd aw p k) p = k := by
  rw [dist_ptrAdd_self, Nat.mod_eq_of_lt h]

@[simp] theorem dist_self (aw : Nat) (p : Ptr) : dist aw p p = 0 := by
  have hlt := Nat.mod_lt p.toNat (ptrModulus_pos aw)
  have hdiv := Nat.mod_add_div p.toNat (ptrModulus aw)
  have e : p.toNat + (ptrModulus aw - p.toNat % ptrModulus aw) = ptrModulus aw * (p.toNat / ptrModulus aw + 1) := by
    rw [Nat.mul_add, Nat.mul_one]
    omega
  rw [dist, e, Nat.mul_mod_right]

/-- The distance counts the increments from one pointer to another. -/
theorem ptrAdd_dist (ha : inRange aw a = true) (hb : inRange aw b = true) : ptrAdd aw b (dist aw a b) = a := by
  rw [inRange_iff] at ha hb
  apply BitVec.eq_of_toNat_eq
  rw [toNat_ptrAdd, dist_of_inRange ha hb]
  split
  · rw [Nat.add_sub_cancel' ‹_›, Nat.mod_eq_of_lt ha]
  · rw [show b.toNat + (a.toNat + ptrModulus aw - b.toNat) = a.toNat + ptrModulus aw by omega, Nat.add_mod_right,
      Nat.mod_eq_of_lt ha]

/-- Pointers at one distance from an origin are equal. -/
theorem eq_of_dist_eq (ha : inRange aw a = true) (hb : inRange aw b = true) (ho : inRange aw o = true)
    (h : dist aw a o = dist aw b o) : a = b := by
  rw [← ptrAdd_dist ha ho, h, ptrAdd_dist hb ho]

theorem dist_eq_zero_iff (ha : inRange aw a = true) (hb : inRange aw b = true) : dist aw a b = 0 ↔ a = b := by
  refine ⟨fun h => eq_of_dist_eq ha hb hb (h.trans (dist_self aw b).symm), fun h => ?_⟩
  rw [h, dist_self]

/-- Increments add to the distance, up to the modulus. -/
theorem dist_ptrAdd (hp : inRange aw p = true) (ho : inRange aw o = true) (k : Nat) :
    dist aw (ptrAdd aw p k) o = (dist aw p o + k) % ptrModulus aw := by
  rw [← dist_ptrAdd_self aw o, ← ptrAdd_ptrAdd, ptrAdd_dist hp ho]

/-- One increment goes one position on, where it does not come round to the origin. -/
theorem dist_ptrSucc (hp : inRange aw p = true) (ho : inRange aw o = true) (h : dist aw p o + 1 < ptrModulus aw) :
    dist aw (ptrSucc aw p) o = dist aw p o + 1 := by
  rw [ptrSucc_eq_ptrAdd, dist_ptrAdd hp ho, Nat.mod_eq_of_lt h]

theorem slotOf_ptrAdd_eq_mod (aw : Fin 16) (p : Ptr) (k : Nat) : slotOf aw (ptrAdd aw p k) = (p.toNat + k) % slotCount aw := by
  rw [slotOf, toNat_ptrAdd, Nat.mod_mod_of_dvd _ (slotCount_dvd_ptrModulus aw)]

theorem slotOf_ptrAdd (aw : Fin 16) (p : Ptr) (k : Nat) :
    slotOf aw (ptrAdd aw p k) = (slotOf aw p + k) % slotCount aw := by
  rw [slotOf_ptrAdd_eq_mod, slotOf, Nat.mod_add_mod]

/-- Positions less than a capacity apart have different slots. -/
theorem slotOf_ptrAdd_ne (p : Ptr) (hjk : j < k) (hk : k < j + slotCount aw) :
    slotOf aw (ptrAdd aw p j) ≠ slotOf aw (ptrAdd aw p k) := by
  rw [slotOf_ptrAdd_eq_mod, slotOf_ptrAdd_eq_mod]
  intro h
  have hd := (Nat.modEq_iff_dvd' (by omega)).mp (show p.toNat + j ≡ p.toNat + k [MOD slotCount aw] from h)
  have hle := Nat.le_of_dvd (by omega) hd
  omega

/-- The difference of R15 over the integers. -/
theorem dist_eq_emod (ha : inRange aw a = true) (hb : inRange aw b = true) :
    (dist aw a b : Int) = ((a.toNat : Int) - (b.toNat : Int)) % (2 ^ (aw.val + 1) : Int) := by
  rw [inRange_iff] at ha hb
  have hM : ((2 : Int) ^ (aw.val + 1)) = (ptrModulus aw : Int) := by simp [ptrModulus]
  rw [hM, dist_of_inRange ha hb]
  split
  · rw [Int.emod_eq_of_lt (by omega) (by omega)]
    omega
  · rw [← Int.add_emod_right, Int.emod_eq_of_lt (by omega) (by omega)]
    omega

end

/-- Settles O8: `dist` and `ptrAdd` invert each other. -/
theorem distanceCountsIncrements : Obligations.DistanceCountsIncrements := fun aw _ b ha hb =>
  ⟨dist_eq_emod ha hb, ptrAdd_dist ha hb, fun _ hk => dist_ptrAdd_of_lt b hk, rfl, slotOf_lt aw b, slotOf_ptrAdd aw b 1⟩

/-! ### The step as the presentation of events -/

/-- Every command completes (R300). -/
theorem exec_completes (i : Instr) (s : State) : ∃ t, exec i s = .next t := by
  obtain ⟨t, ht, -⟩ := exec_armed i s
  exact ⟨t, ht⟩

@[simp] theorem State.drawEvent_inReset (s : State) : s.drawEvent.inReset = s.inReset := by
  unfold State.drawEvent
  split <;> rfl

@[simp] theorem State.strobesDown_inReset (s : State) : s.strobesDown.inReset = s.inReset := rfl

theorem stepEvent_appCmd {s : State} (hr : s.inReset = false) (w : Cmd) :
    stepEvent (.appCmd w) s = exec (decode .app w) s := stepEvent_running hr _

theorem stepEvent_serCmd_external {s : State} (hr : s.inReset = false) (hm : s.serMode = .external) (w : Cmd) :
    stepEvent (.serCmd w) s = exec (decode .ser w) s := by
  rw [stepEvent_running hr, runEvent, acceptSer, hm]

/-- Settles O57: the presented word is the next event, and its port accepts it. -/
theorem stepRunsPresentedCommand : Obligations.StepRunsPresentedCommand := by
  refine fun w es s hr => ⟨fun hp => ?_, fun hm hp => ?_⟩ <;> rw [step_of_pending hp]
  · exact stepEvent_appCmd (s := State.strobesDown { s with pending := es }) hr w
  · exact stepEvent_serCmd_external (s := State.strobesDown { s with pending := es }) hr hm w

/-- The integrator's events are the changes of the reset inputs. -/
theorem isResetEvent_iff {e : Event} : isResetEvent e = true ↔ ∃ a b, e = .resetPins a b := by
  cases e with
  | internal k =>
    have : ownerOf k ≠ .integrator := by
      unfold ownerOf
      split <;> decide
    simpa [isResetEvent, agentOf] using this
  | _ => simp [isResetEvent, agentOf]

/-- Settles O58: only a change of the reset inputs can be refused, and only as partial. -/
theorem everyStepCompletes : Obligations.EveryStepCompletes := by
  refine ⟨exec_completes, fun s => ?_⟩
  cases he : isResetEvent s.nextEvent with
  | false =>
    obtain ⟨t, ht, -⟩ := stepEvent_armed s.drawEvent.strobesDown he
    exact .inl ⟨t, ht⟩
  | true =>
    obtain ⟨a, b, hab⟩ := isResetEvent_iff.mp he
    have e : step s = s.drawEvent.strobesDown.setResetPins a b := by
      rw [step, stepNext, hab]
      rfl
    rcases s.drawEvent.strobesDown.setResetPins_cases a b with ⟨hr, hne, e'⟩ | ⟨-, -, -, e'⟩ | ⟨-, e'⟩
    · exact .inr ⟨e.trans e', by simpa using hr, a, b, hne, hab⟩
    · exact .inl ⟨_, e.trans e'⟩
    · exact .inl ⟨_, e.trans e'⟩

end Sys2Proof.Machine

/-! SUPPORT. Single commands of both ports (40_app_port.md, 41_serial_port.md), and the values after reset
(70_reset_and_hazards.md). -/

namespace Sys2Proof.Machine

/-! ### The FIFO commands (40_app_port.md R152, R155; 41_serial_port.md R206, R207) -/

theorem Fifo.rempty_eq_false_iff {f : Fifo} : f.rempty = false ↔ f.rcount ≠ 0 := beq_eq_false_iff_ne

theorem Fifo.flushReq_of_eq {f : Fifo} (h : f.flReq = f.fa) :
    f.flushReq = { f with flMark := f.wptr, flReq := !f.flReq } := by rw [f.flushReq_eq, if_pos h]

theorem Fifo.flushReq_of_ne {f : Fifo} (h : f.flReq ≠ f.fa) :
    f.flushReq = { f with flNext := f.wptr, flPend := true } := by rw [f.flushReq_eq, if_neg h]

section
variable {s : State}

theorem exec_aTxEnq_accepts (h : s.txf.wfull = false) (b : Byte) :
    exec (.aTxEnq b) s = .next (State.rspA { s with txf := s.txf.push b } 0 true false false) := by
  simp [exec, execATxEnq, State.txEnq, h]

theorem exec_aTxEnq_overflows (h : s.txf.wfull = true) (b : Byte) :
    exec (.aTxEnq b) s =
      .next (State.rspA { s with txf := s.txf.flushReq, errTx := true } 0 false false false) := by
  simp [exec, execATxEnq, State.txEnq, h]

theorem exec_sRxEnq_accepts (h : s.rxf.wfull = false) (b : Byte) :
    exec (.sRxEnq b) s = .next (State.rspS { s with rxf := s.rxf.push b } 0 true false false) := by
  simp [exec, execSRxEnq, State.rxEnq, h]

theorem exec_sRxEnq_overflows (h : s.rxf.wfull = true) (b : Byte) :
    exec (.sRxEnq b) s =
      .next (State.rspS { s with rxf := s.rxf.flushReq, errRx := true } 0 false false false) := by
  simp [exec, execSRxEnq, State.rxEnq, h]

theorem exec_aRxDeq_absent (h : s.rxf.rempty = true) (d : Byte) :
    exec (.aRxDeq d) s = .next (s.rspA 0 false false false) := by
  simp [exec, execARxDeq, State.rxDeq, h, byteOrZero, zextByte]

theorem exec_aRxDeq_takes (h : s.rxf.rempty = false) (d : Byte) :
    exec (.aRxDeq d) s = .next (State.rspA { s with rxf := s.rxf.pop }
      (zextByte (s.rxf.byteAt s.rxf.rhead)) true false false) := by
  simp [exec, execARxDeq, State.rxDeq, h, byteOrZero]

theorem exec_sTxDeq_absent (h : s.txf.rempty = true) (d : Byte) :
    exec (.sTxDeq d) s = .next (State.rspS { s with armed := false } 0 false false false) := by
  simp [exec, execSTxDeq, State.txDeq, h, byteOrZero, zextByte]

theorem exec_sTxDeq_takes (h : s.txf.rempty = false) (d : Byte) :
    exec (.sTxDeq d) s = .next (State.rspS { s with txf := s.txf.pop }
      (zextByte (s.txf.byteAt s.txf.rhead)) true false false) := by
  simp [exec, execSTxDeq, State.txDeq, h, byteOrZero]

end

/-- Settles O10: the accepting case writes the slot of `wptr`, the other two are those of `FLUSH_REQ`. -/
theorem txEnqueueResult : Obligations.TxEnqueueResult := by
  refine fun b s => ⟨fun h => exec_aTxEnq_accepts h b, fun h hf => ?_, fun h hf => ?_⟩ <;>
    rw [exec_aTxEnq_overflows h]
  · rw [Fifo.flushReq_of_eq hf]
    rfl
  · rw [Fifo.flushReq_of_ne hf]
    rfl

/-- Settles O11: as O10, for RXF and the SER port. -/
theorem rxEnqueueResult : Obligations.RxEnqueueResult := by
  refine fun b s => ⟨fun h => exec_sRxEnq_accepts h b, fun h hf => ?_, fun h hf => ?_⟩ <;>
    rw [exec_sRxEnq_overflows h]
  · rw [Fifo.flushReq_of_eq hf]
    rfl
  · rw [Fifo.flushReq_of_ne hf]
    rfl

/-- Settles O12: the read end of RXF answers by its count. -/
theorem rxDequeueResult : Obligations.RxDequeueResult := fun d _ =>
  ⟨fun h => exec_aRxDeq_absent (Fifo.rempty_iff.mpr h) d, fun h => exec_aRxDeq_takes (Fifo.rempty_eq_false_iff.mpr h) d⟩

/-- Settles O13: the read end of TXF answers by its count. -/
theorem txDequeueResult : Obligations.TxDequeueResult := fun d _ =>
  ⟨fun h => exec_sTxDeq_absent (Fifo.rempty_iff.mpr h) d, fun h => exec_sTxDeq_takes (Fifo.rempty_eq_false_iff.mpr h) d⟩

/-! ### The counts and full flags (40_app_port.md R153, R154, R156; 41_serial_port.md R208, R209) -/

theorem Fifo.wfull_eq (f : Fifo) : f.wfull = decide (f.wcount = f.capacity) := rfl

theorem Fifo.rfull_eq (f : Fifo) : f.rfull = decide (f.rcount = f.capacity) := rfl

/-- Settles O14: both counts and both full flags are read from the view of the command's own domain. -/
theorem countAndFullResults : Obligations.CountAndFullResults := fun _ _ => ⟨rfl, rfl, rfl, rfl, rfl⟩

/-- A distance is below `2^16`, so a count field never truncates it. -/
theorem Fifo.countField_wcount_toNat (f : Fifo) : (countField f.wcount).toNat = f.wcount := by
  have h : f.wcount < ptrModulus f.aw := dist_lt ..
  rw [countField, BitVec.toNat_ofNat, Nat.mod_eq_of_lt (h.trans_le (ptrModulus_le f.aw))]

/-- Settles O16: `A_TX_FULL` writes no register that `A_TX_ENQ` reads. -/
theorem fullFlagPredictsOverflow : Obligations.FullFlagPredictsOverflow := by
  intro b d s
  have hcount : s.txf.wfull = true ↔ (countField s.txf.wcount).toNat = s.txf.capacity := by
    rw [Fifo.countField_wcount_toNat, Fifo.wfull_eq, decide_eq_true_iff]
  have henq (t : State) (ht : t.txf.wfull = s.txf.wfull) :
      ∃ u, exec (.aTxEnq b) t = .next u ∧ u.aRsp.f0 = !s.txf.wfull := by
    cases h : s.txf.wfull with
    | false => exact ⟨_, exec_aTxEnq_accepts (ht.trans h) b, rfl⟩
    | true => exact ⟨_, exec_aTxEnq_overflows (ht.trans h) b, rfl⟩
  obtain ⟨u, hu, hf⟩ := henq (s.rspA 0 s.txf.wfull false false) rfl
  exact ⟨_, u, _, rfl, hu, rfl, hf, hcount⟩

/-! ### The error commands (40_app_port.md R157, R158) -/

theorem State.errCause_toNat (s : State) : s.errCause.toNat = 2 * s.errRxQ.toNat + s.errTx.toNat := by
  unfold State.errCause
  cases s.errRxQ <;> cases s.errTx <;> rfl

/-- Settles O17: `A_ERR_READ` answers with the flag of R46 and the two latches as a number. -/
theorem errorFlagRead : Obligations.ErrorFlagRead := fun _ s => ⟨rfl, s.errCause, s.errCause_toNat, rfl⟩

/-- Settles O18: the clear is requested on the state with `err_tx` down. -/
theorem errorClearRequest : Obligations.ErrorClearRequest := by
  intro d s
  have e : exec (.aErrClr d) s =
      .next ((State.requestErrClear { s with errTx := false }).rspA 0 false false false) := rfl
  rw [e]
  rcases State.requestErrClear_cases { s with errTx := false } with ⟨h, e'⟩ | ⟨h, e'⟩ <;> rw [e']
  · exact ⟨fun _ => rfl, fun hne => absurd h hne⟩
  · exact ⟨fun heq => absurd heq h, fun _ => rfl⟩

/-! ### `S_ISR` (41_serial_port.md R204) -/

/-- Check 1 takes a byte: the transmit condition holds, and a byte is visible. -/
def State.takesTx (s : State) : Bool := s.txp && !s.txf.rempty

/-- The state after check 1, where its condition holds or not, by the fields that it can change. -/
def State.txChecked (s : State) : State :=
  { s with
    txf := if s.takesTx then s.txf.pop else s.txf
    armed := s.armed && !(s.txp && s.txf.rempty)
    periph := { s.periph with
      tdr := if s.takesTx then s.txf.byteAt s.txf.rhead else s.periph.tdr
      txe := s.periph.txe && !s.takesTx }
    strobes := { s.strobes with
      pWr := if s.takesTx then some (s.txf.byteAt s.txf.rhead) else s.strobes.pWr } }

/-- The state after check 2, where its condition holds or not, by the fields that it can change. -/
def State.rxChecked (s : State) : State :=
  { s with
    rxf := if s.rxp then (if s.rxf.wfull then s.rxf.flushReq else s.rxf.push s.periph.rdr) else s.rxf
    errRx := s.errRx || (s.rxp && s.rxf.wfull)
    periph := { s.periph with rxne := false }
    strobes := { s.strobes with
      pRd := s.strobes.pRd || s.rxp
      pClrRxne := s.strobes.pClrRxne || s.rxp } }

theorem State.serveTx_checked (s : State) :
    (if s.txp then s.serveTx else (none, s)) =
      (if s.takesTx then some (s.txf.byteAt s.txf.rhead) else none, s.txChecked) := by
  cases ht : s.txp with
  | false => simp [State.txChecked, State.takesTx, ht]
  | true =>
    rcases s.serveTx_cases with ⟨hr, e⟩ | ⟨hr, e⟩
    · simp [State.txChecked, State.takesTx, ht, hr, e]
    · simp [State.txChecked, State.takesTx, ht, hr, e, State.writeData, Periph.writeData]

theorem State.serveRx_checked (s : State) :
    (if s.rxp then s.serveRx else (none, s)) = (if s.rxp then some s.periph.rdr else none, s.rxChecked) := by
  cases hr : s.rxp with
  | false =>
    have hp : { s.periph with rxne := false } = s.periph := congrArg (fun r => { s.periph with rxne := r }) hr.symm
    simp [State.rxChecked, hr, hp]
  | true =>
    obtain ⟨e₁, ⟨hf, e₂⟩ | ⟨hf, e₂⟩⟩ := s.serveRx_cases <;> exact Prod.ext e₁ (by simp [State.rxChecked, hr, hf, e₂])

/-- `S_ISR` is check 1 and then check 2, whose condition and byte check 1 leaves as they were. -/
theorem exec_sIsr (d : Byte) (s : State) :
    exec (.sIsr d) s = .next (s.txChecked.rxChecked.rspS
      ((if s.rxp then s.periph.rdr else 0) ++ (if s.takesTx then s.txf.byteAt s.txf.rhead else 0))
      s.takesTx s.rxp false) := by
  have hrxp : s.rxp = s.txChecked.rxp := rfl
  simp only [exec, execSIsr, State.serveTx_checked]
  rw [hrxp, State.serveRx_checked]
  cases s.txChecked.rxp <;> cases s.takesTx <;> rfl

theorem Fifo.not_rempty (f : Fifo) : (!f.rempty) = decide (f.rcount ≠ 0) := by
  by_cases h : f.rcount = 0 <;> simp [Fifo.rempty, h]

/-- Settles O19: the two checks, field by field. -/
theorem isrServesBothConditions : Obligations.IsrServesBothConditions := by
  intro d s txp takes tb rxp rb
  have htakes : takes = s.takesTx := congrArg (txp && ·) s.txf.not_rempty.symm
  have hflush : s.rxf.flushReq = if s.rxf.flReq = s.rxf.fa then { s.rxf with flMark := s.rxf.wptr, flReq := !s.rxf.flReq }
      else { s.rxf with flNext := s.rxf.wptr, flPend := true } := s.rxf.flushReq_eq
  rw [htakes, ← hflush]
  refine ⟨_, exec_sIsr d s, rfl, rfl, ?_, rfl, rfl, rfl, rfl, rfl⟩
  cases hrxp : rxp with
  | false => exact if_neg (Bool.eq_false_iff.mp hrxp)
  | true => exact if_pos hrxp

/-! ### The values after reset (10_state.md R48; 70_reset_and_hazards.md R350) -/

@[simp] theorem ungray_zero : ungray 0 = 0 := by decide

@[simp] theorem dist_zero_zero (aw : Nat) : dist aw 0 0 = 0 := by simp [dist]

section
variable (aw : Fin 16)

@[simp] theorem Fifo.reset_rqb : (Fifo.reset aw).rqb = 0 := ungray_zero

@[simp] theorem Fifo.reset_wqb : (Fifo.reset aw).wqb = 0 := ungray_zero

@[simp] theorem Fifo.reset_wcount : (Fifo.reset aw).wcount = 0 := by
  rw [Fifo.wcount, Fifo.reset_rqb]
  exact dist_zero_zero aw

@[simp] theorem Fifo.reset_rcount : (Fifo.reset aw).rcount = 0 := by
  rw [Fifo.rcount, Fifo.reset_wqb]
  exact dist_zero_zero aw

theorem Fifo.capacity_ne_zero (f : Fifo) : f.capacity ≠ 0 := (slotCount_pos f.aw).ne'

@[simp] theorem Fifo.reset_wfull : (Fifo.reset aw).wfull = false := by
  rw [Fifo.wfull_eq, Fifo.reset_wcount]
  exact decide_eq_false (Fifo.capacity_ne_zero _).symm

@[simp] theorem Fifo.reset_rfull : (Fifo.reset aw).rfull = false := by
  rw [Fifo.rfull_eq, Fifo.reset_rcount]
  exact decide_eq_false (Fifo.capacity_ne_zero _).symm

end

theorem State.ofConfig_fifo (c : Config) (f : FifoId) : ∃ aw, (State.ofConfig c).fifo f = Fifo.reset aw := by
  cases f <;> exact ⟨_, rfl⟩

/-- Settles O33: the derived quantities are those of two pointers at 0. -/
theorem resetValues : Obligations.ResetValues := by
  have hgray : gray 0 = 0 := by decide
  have hrsp : Response.reset.pack = 0 := by decide
  refine fun c => ⟨fun f => ?_, rfl, rfl, rfl, rfl, rfl, rfl, rfl, rfl, rfl, hrsp, hrsp, rfl, rfl, rfl, rfl, rfl, rfl, rfl⟩
  obtain ⟨aw, e⟩ := State.ofConfig_fifo c f
  simp only [e]
  exact ⟨rfl, rfl, rfl, rfl, rfl, rfl, rfl, rfl, rfl, rfl, rfl, rfl, rfl, rfl, rfl, hgray, hgray, Fifo.reset_wcount aw,
    Fifo.reset_rcount aw, Fifo.reset_wfull aw, Fifo.reset_rfull aw⟩

/-- Every source of an internal step agrees with its view after reset. -/
theorem internalEnabled_ofConfig (c : Config) (k : InternalStep) : (State.ofConfig c).internalEnabled k = false := by
  cases k with
  | wPub f | rPub f | capture f | ackSync f => cases f <;> rfl
  | syncR2W f v =>
    obtain ⟨aw, e⟩ := State.ofConfig_fifo c f
    refine Bool.eq_false_iff.mpr fun h => (State.internalEnabled_syncR2W_iff.mp h).1 ?_
    rw [e]
    exact Fifo.reset_rqb aw
  | syncW2R f v =>
    obtain ⟨aw, e⟩ := State.ofConfig_fifo c f
    refine Bool.eq_false_iff.mpr fun h => (State.internalEnabled_syncW2R_iff.mp h).1 ?_
    rw [e]
    exact Fifo.reset_wqb aw
  | errRxSync | ecReqSync | ecAckSync => rfl

/-- Settles O36: as every view agrees with its source, and the block is quiescent. -/
theorem nothingEnabledAfterReset : Obligations.NothingEnabledAfterReset := by
  refine fun c k => ⟨internalEnabled_ofConfig c k, rfl, ?_⟩
  simp [State.dispatchEnabled, State.irq, State.txp, State.rxp, State.ofConfig, Periph.reset]

theorem Fifo.reset_inv (aw : Fin 16) : (Fifo.reset aw).Inv := by
  have h0 : inRange aw 0 = true := inRange_iff.mpr (ptrModulus_pos aw)
  have hpos : (Fifo.reset aw).pos 0 = 0 := by
    rw [Fifo.pos, Fifo.reset_rqb]
    exact dist_zero_zero aw
  refine ⟨⟨⟨h0, h0, h0, h0, h0, h0, h0, h0, h0⟩, ⟨List.Pairwise.nil, by simp [Fifo.reset]⟩, by simp [Fifo.reset]⟩,
    ⟨le_rfl, ?_, ?_, le_rfl, ?_⟩, ⟨?_, by simp [Fifo.flushOutstanding, Fifo.reset]⟩,
    ⟨rfl, .inl rfl, by simp [Fifo.reset], by simp [Fifo.reset]⟩, by simp [Fifo.reset]⟩
  · rw [Fifo.reset_wqb]
    exact le_rfl
  · rw [Fifo.reset_wqb]
    exact le_rfl
  · exact hpos.le.trans (Nat.zero_le _)
  · exact hpos.le.trans (Nat.zero_le _)

/-- Settles O38: both FIFOs hold pointers at 0, and the block runs. -/
theorem invariantAtReset : Obligations.InvariantAtReset := fun c =>
  ⟨Fifo.reset_inv c.awTx, Fifo.reset_inv c.awRx, ⟨rfl, .inl rfl, by simp [State.ofConfig]⟩,
    fun h => absurd (Fifo.reset_rcount c.awTx) h, by simp [State.ofConfig, State.inReset]⟩

/-- Settles O34: a held block is its reset state under the levels of its inputs. -/
theorem jointResetHoldsAndRestarts : Obligations.JointResetHoldsAndRestarts := by
  intro s
  have hheld (u : State) (h : u.inReset = true) (a b : Bool) : stepEvent (.resetPins a b) u = .next (u.resetTo a b) := by
    simp [stepEvent, State.setResetPins, h]
  have hassert : stepEvent (.resetPins false false) s = .next (s.resetTo false false) := by
    simp [stepEvent, State.setResetPins]
  refine ⟨_, hassert, rfl, fun e he => stepEvent_inReset rfl he, fun a b hab => ?_⟩
  have hu : State.inReset { s.resetTo false false with rstAN := a, rstSN := b } = true := by simp [State.inReset, hab]
  exact ⟨_, hheld _ rfl a b, hu, rfl, hheld _ hu true true⟩

end Sys2Proof.Machine

/-! SUPPORT. Who writes what: the command that an event runs, and the frames of commands and events (10_state.md R48,
20_memory.md R91). -/

namespace Sys2Proof.Machine

/-! ### What an event does on a block out of reset (R17, R33, R34, R200, R211) -/

/-- The transitions of a running block, but for a change of the reset inputs. -/
inductive Transition (s : State) : Event → State → Prop where
  | appCommand {w : Cmd} {t : State} (ht : exec (decode .app w) s = .next t) : Transition s (.appCmd w) t
  | serCommand {w : Cmd} {t : State} (hm : s.serMode = .external) (ht : exec (decode .ser w) s = .next t) :
      Transition s (.serCmd w) t
  | serIgnored {w : Cmd} (hm : s.serMode = .auto) : Transition s (.serCmd w) s
  | dispatched {t : State} (hd : s.dispatchEnabled = true) (ht : exec (.sIsr 0) s = .next t) : Transition s .dispatch t
  | notDispatched (hd : s.dispatchEnabled = false) : Transition s .dispatch s
  | appIdle : Transition s .appIdle { s with aRspValid := false }
  | serIdle : Transition s .serIdle { s with sRspValid := false }
  | internal {k : InternalStep} (hk : s.internalEnabled k = true) : Transition s (.internal k) (s.internalEffect k)
  | notEnabled {k : InternalStep} (hk : s.internalEnabled k = false) : Transition s (.internal k) s
  | periphTxc : Transition s .periphTxc s.periphTxc
  | periphRxa {b : Byte} : Transition s (.periphRxa b) (s.periphRxa b)

section
variable {e : Event} {s t : State}

theorem transition_of_runEvent (he : isResetEvent e = false) (h : runEvent e s = .next t) : Transition s e t := by
  cases e with
  | appCmd w => exact .appCommand h
  | serCmd w =>
    rcases acceptSer_cases w s with ⟨hm, e⟩ | ⟨hm, e⟩
    · exact .serCommand hm (e.symm.trans h)
    · cases e.symm.trans h
      exact .serIgnored hm
  | dispatch =>
    rcases dispatcherTurn_cases s with ⟨hd, e⟩ | ⟨hd, e⟩
    · exact .dispatched hd (e.symm.trans h)
    · cases e.symm.trans h
      exact .notDispatched hd
  | appIdle =>
    cases h
    exact .appIdle
  | serIdle =>
    cases h
    exact .serIdle
  | internal k =>
    cases h
    rcases s.internalStep_cases k with ⟨hk, e⟩ | ⟨hk, e⟩ <;> rw [e]
    · exact .internal hk
    · exact .notEnabled hk
  | periphTxc =>
    cases h
    exact .periphTxc
  | periphRxa b =>
    cases h
    exact .periphRxa
  | resetPins _ _ => cases he

/-- A transition but a reset: of a held block nothing changes. -/
theorem transition_of_stepEvent (he : isResetEvent e = false) (h : stepEvent e s = .next t) :
    (s.inReset = true ∧ t = s) ∨ (s.inReset = false ∧ Transition s e t) := by
  cases hr : s.inReset with
  | false => exact .inr ⟨rfl, transition_of_runEvent he (stepEvent_running hr e ▸ h)⟩
  | true =>
    cases (stepEvent_inReset hr he).symm.trans h
    exact .inl ⟨rfl, rfl⟩

/-- A transition takes place as the event says, whatever the schedule. -/
theorem stepEvent_of_transition (hr : s.inReset = false) (h : Transition s e t) : stepEvent e s = .next t := by
  rw [stepEvent_running hr]
  cases h with
  | appCommand ht => exact ht
  | serCommand hm ht => rw [runEvent, acceptSer, hm, ht]
  | serIgnored hm => rw [runEvent, acceptSer, hm]
  | dispatched hd ht => rw [runEvent, dispatcherTurn, if_pos hd, ht]
  | notDispatched hd => rw [runEvent, dispatcherTurn, if_neg (Bool.eq_false_iff.mp hd)]
  | internal hk => rw [runEvent, State.internalStep, if_pos hk]
  | notEnabled hk => rw [runEvent, State.internalStep, if_neg (Bool.eq_false_iff.mp hk)]
  | appIdle | serIdle | periphTxc | periphRxa => rfl

end

/-! ### What each step leaves alone (R48) -/

/-- The fields that only the environment and a reset write: the reset inputs and the schedule. -/
def State.external (s : State) : Bool × Bool × List Event × Nat := (s.rstAN, s.rstSN, s.pending, s.drawn)

theorem State.inReset_congr {s t : State} (h : t.external = s.external) : t.inReset = s.inReset := by
  simp only [State.external, Prod.mk.injEq] at h
  obtain ⟨hA, hS, -⟩ := h
  rw [State.inReset, State.inReset, hA, hS]

/-- A FIFO whose write end moves keeps its read end. -/
@[simp] theorem Fifo.flushReq_readEnd (x : Fifo) : x.flushReq.readEnd = x.readEnd := by
  rcases x.flushReq_cases with ⟨-, e⟩ | ⟨-, e⟩ <;> rw [e] <;> rfl

@[simp] theorem Fifo.push_readEnd (x : Fifo) (b : Byte) : (x.push b).readEnd = x.readEnd := rfl

@[simp] theorem Fifo.wPub_readEnd (x : Fifo) : x.wPub.readEnd = x.readEnd := rfl

@[simp] theorem Fifo.syncR2W_readEnd (x : Fifo) (v : Nat) : (x.syncR2W v).readEnd = x.readEnd := rfl

@[simp] theorem Fifo.ackSync_readEnd (x : Fifo) : x.ackSync.readEnd = x.readEnd := by
  rcases x.ackSync_cases with ⟨-, -, e⟩ | ⟨-, e⟩ <;> rw [e] <;> rfl

/-- A FIFO whose read end moves keeps its write end and its storage. -/
@[simp] theorem Fifo.pop_writeEnd (x : Fifo) : x.pop.writeEnd = x.writeEnd := rfl

@[simp] theorem Fifo.rPub_writeEnd (x : Fifo) : x.rPub.writeEnd = x.writeEnd := rfl

@[simp] theorem Fifo.advance_writeEnd (x : Fifo) : x.advance.writeEnd = x.writeEnd := by
  rcases x.advance_cases with ⟨-, e⟩ | ⟨-, e⟩ <;> rw [e] <;> rfl

@[simp] theorem Fifo.syncW2R_writeEnd (x : Fifo) (v : Nat) : (x.syncW2R v).writeEnd = x.writeEnd := by
  rcases x.syncW2R_cases v with ⟨-, e⟩ | ⟨-, e⟩ <;> rw [e]
  · rfl
  · exact Fifo.advance_writeEnd _

@[simp] theorem Fifo.capture_writeEnd (x : Fifo) : x.capture.writeEnd = x.writeEnd := by
  rcases x.capture_cases with ⟨-, e⟩ | ⟨-, e⟩ <;> rw [e]
  · rfl
  · exact Fifo.advance_writeEnd _

section
variable {s t : State} {i : Instr}

/-- A command of the APP port writes APP registers only. -/
theorem exec_app_frame (hp : i.port = .app) (h : exec i s = .next t) :
    t.serOwned = s.serOwned ∧ t.periph = s.periph ∧ t.external = s.external ∧ t.aRspValid = true := by
  cases i with
  | aTxEnq b =>
    cases hf : s.txf.wfull with
    | false =>
      cases (exec_aTxEnq_accepts hf b).symm.trans h
      exact ⟨rfl, rfl, rfl, rfl⟩
    | true =>
      cases (exec_aTxEnq_overflows hf b).symm.trans h
      exact ⟨by simp [State.serOwned], rfl, rfl, rfl⟩
  | aRxDeq d =>
    cases hr : s.rxf.rempty with
    | false =>
      cases (exec_aRxDeq_takes hr d).symm.trans h
      exact ⟨rfl, rfl, rfl, rfl⟩
    | true =>
      cases (exec_aRxDeq_absent hr d).symm.trans h
      exact ⟨rfl, rfl, rfl, rfl⟩
  | aErrClr d =>
    cases h
    rcases State.requestErrClear_cases { s with errTx := false } with ⟨-, e⟩ | ⟨-, e⟩ <;> rw [e] <;>
      exact ⟨rfl, rfl, rfl, rfl⟩
  | aNop _ | aTxCount _ | aTxFull _ | aRxCount _ | aErrRead _ | aReserved8 _ | aReserved9 _ | aReservedA _
  | aReservedB _ | aReservedC _ | aReservedD _ | aReservedE _ | aReservedF _ =>
    cases h
    exact ⟨rfl, rfl, rfl, rfl⟩
  | _ => cases hp

/-- A command of the SER port writes SER registers and the peripheral only. -/
theorem exec_ser_frame (hp : i.port = .ser) (h : exec i s = .next t) :
    t.appOwned = s.appOwned ∧ t.external = s.external ∧ t.sRspValid = true := by
  cases i with
  | sRxEnq b =>
    cases hf : s.rxf.wfull with
    | false =>
      cases (exec_sRxEnq_accepts hf b).symm.trans h
      exact ⟨rfl, rfl, rfl⟩
    | true =>
      cases (exec_sRxEnq_overflows hf b).symm.trans h
      exact ⟨by simp [State.appOwned], rfl, rfl⟩
  | sTxDeq d =>
    cases hr : s.txf.rempty with
    | false =>
      cases (exec_sTxDeq_takes hr d).symm.trans h
      exact ⟨rfl, rfl, rfl⟩
    | true =>
      cases (exec_sTxDeq_absent hr d).symm.trans h
      exact ⟨rfl, rfl, rfl⟩
  | sIsr d =>
    cases (exec_sIsr d s).symm.trans h
    refine ⟨?_, rfl, rfl⟩
    have hw : s.txChecked.txf.writeEnd = s.txf.writeEnd := by
      simp only [State.txChecked]
      split <;> rfl
    have hr : s.txChecked.rxChecked.rxf.readEnd = s.rxf.readEnd := by
      simp only [State.rxChecked]
      split
      · split
        · exact Fifo.flushReq_readEnd _
        · rfl
      · rfl
    simp [State.appOwned, ← hw, ← hr, State.rxChecked, State.txChecked]
  | sNop _ | sTxCount _ | sTxFull _ | sReserved6 _ | sReserved7 _ | sReserved8 _ | sReserved9 _ | sReservedA _
  | sReservedB _ | sReservedC _ | sReservedD _ | sReservedE _ | sReservedF _ =>
    cases h
    exact ⟨rfl, rfl, rfl⟩
  | _ => cases hp

end

/-- An internal step of APP writes APP registers only. -/
theorem State.internalEffect_app_frame (s : State) {k : InternalStep} (hk : ownerOf k = .app) :
    (s.internalEffect k).serOwned = s.serOwned ∧ (s.internalEffect k).periph = s.periph := by
  cases k with
  | wPub f | syncR2W f _ | ackSync f =>
    cases f with
    | tx => exact ⟨by simp [State.internalEffect, State.serOwned], rfl⟩
    | rx => cases hk
  | rPub f | syncW2R f _ | capture f =>
    cases f with
    | tx => cases hk
    | rx => exact ⟨by simp [State.internalEffect, State.serOwned, State.armIfTx], rfl⟩
  | errRxSync => exact ⟨rfl, rfl⟩
  | ecReqSync => cases hk
  | ecAckSync => rcases s.ecAckSync_cases with ⟨-, -, e⟩ | ⟨-, e⟩ <;> rw [State.internalEffect, e] <;> exact ⟨rfl, rfl⟩

/-- An internal step of SER writes SER registers only. -/
theorem State.internalEffect_ser_frame (s : State) {k : InternalStep} (hk : ownerOf k = .ser) :
    (s.internalEffect k).appOwned = s.appOwned := by
  cases k with
  | wPub f | syncR2W f _ | ackSync f =>
    cases f with
    | tx => cases hk
    | rx => simp [State.internalEffect, State.appOwned]
  | rPub f | syncW2R f _ | capture f =>
    cases f with
    | tx => simp [State.internalEffect, State.appOwned]
    | rx => cases hk
  | errRxSync => cases hk
  | ecReqSync => rfl
  | ecAckSync => cases hk

theorem State.internalEffect_frame (s : State) (k : InternalStep) :
    (s.internalEffect k).external = s.external ∧ (s.internalEffect k).aRsp = s.aRsp ∧
      (s.internalEffect k).aRspValid = s.aRspValid ∧ (s.internalEffect k).sRsp = s.sRsp ∧
      (s.internalEffect k).sRspValid = s.sRspValid ∧ (s.internalEffect k).strobes = s.strobes ∧
      (s.internalEffect k).periph = s.periph ∧ (s.internalEffect k).serMode = s.serMode := by
  cases k with
  | errRxSync | ecReqSync => exact ⟨rfl, rfl, rfl, rfl, rfl, rfl, rfl, rfl⟩
  | ecAckSync =>
    rcases s.ecAckSync_cases with ⟨-, -, e⟩ | ⟨-, e⟩ <;> rw [State.internalEffect, e] <;>
      exact ⟨rfl, rfl, rfl, rfl, rfl, rfl, rfl, rfl⟩
  | _ => simp [State.internalEffect, State.external]

theorem ownerOf_eq_app_or_ser (k : InternalStep) : ownerOf k = .app ∨ ownerOf k = .ser := by
  unfold ownerOf
  split <;> simp

section
variable {e : Event} {s t : State}

theorem Transition.frame (h : Transition s e t) :
    (agentOf e = .app → t.serOwned = s.serOwned ∧ t.periph = s.periph) ∧
    (agentOf e = .ser → t.appOwned = s.appOwned) ∧
    (agentOf e = .peripheral → t.appOwned = s.appOwned ∧ t.serOwned = s.serOwned) ∧ t.external = s.external := by
  cases h with
  | @appCommand w t ht =>
    obtain ⟨hser, hper, hext, -⟩ := exec_app_frame (decode_fields .app w).1 ht
    exact ⟨fun _ => ⟨hser, hper⟩, by simp [agentOf], by simp [agentOf], hext⟩
  | @serCommand w t _ ht =>
    obtain ⟨happ, hext, -⟩ := exec_ser_frame (decode_fields .ser w).1 ht
    exact ⟨by simp [agentOf], fun _ => happ, by simp [agentOf], hext⟩
  | dispatched _ ht =>
    obtain ⟨happ, hext, -⟩ := exec_ser_frame rfl ht
    exact ⟨by simp [agentOf], fun _ => happ, by simp [agentOf], hext⟩
  | serIgnored | notDispatched | notEnabled => exact ⟨fun _ => ⟨rfl, rfl⟩, fun _ => rfl, fun _ => ⟨rfl, rfl⟩, rfl⟩
  | appIdle => exact ⟨fun _ => ⟨rfl, rfl⟩, by simp [agentOf], by simp [agentOf], rfl⟩
  | serIdle => exact ⟨by simp [agentOf], fun _ => rfl, by simp [agentOf], rfl⟩
  | @internal k _ =>
    refine ⟨s.internalEffect_app_frame, s.internalEffect_ser_frame, fun h => ?_, (s.internalEffect_frame k).1⟩
    rcases ownerOf_eq_app_or_ser k with hk | hk <;> cases hk.symm.trans h
  | periphTxc | periphRxa => exact ⟨by simp [agentOf], by simp [agentOf], fun _ => ⟨rfl, rfl⟩, rfl⟩

/-- Settles O45: by the frame of each step, and a change of the reset inputs is the integrator's. -/
theorem eachDomainWritesItsOwn : Obligations.EachDomainWritesItsOwn := by
  intro e s t h
  have hsched {t : State} (hx : t.external = s.external) : t.pending = s.pending ∧ t.drawn = s.drawn := by
    simp only [State.external, Prod.mk.injEq] at hx
    exact hx.2.2
  cases he : isResetEvent e with
  | false =>
    rcases transition_of_stepEvent he h with ⟨-, rfl⟩ | ⟨-, ht⟩
    · exact ⟨fun _ => ⟨rfl, rfl⟩, fun _ => rfl, fun _ => ⟨rfl, rfl⟩, rfl, rfl⟩
    · obtain ⟨happ, hser, hper, hext⟩ := ht.frame
      exact ⟨happ, hser, hper, hsched hext⟩
  | true =>
    obtain ⟨a, b, rfl⟩ := isResetEvent_iff.mp he
    refine ⟨by simp [agentOf], by simp [agentOf], by simp [agentOf], ?_⟩
    rcases s.setResetPins_cases a b with ⟨-, -, e⟩ | ⟨-, -, -, e⟩ | ⟨-, e⟩ <;> cases e.symm.trans h <;>
      exact ⟨rfl, rfl⟩

/-- The response registers of a port are written by its commands only, and its valid output falls in an idle cycle. -/
theorem Transition.responses (h : Transition s e t) :
    ((∀ w, e ≠ .appCmd w) → t.aRsp = s.aRsp ∧ (e ≠ .appIdle → t.aRspValid = s.aRspValid)) ∧
    ((∀ w, e ≠ .serCmd w) → e ≠ .dispatch → t.sRsp = s.sRsp ∧ (e ≠ .serIdle → t.sRspValid = s.sRspValid)) := by
  have app {u : State} (hu : u.appOwned = s.appOwned) : u.aRsp = s.aRsp ∧ u.aRspValid = s.aRspValid :=
    ⟨congrArg AppOwned.aRsp hu, congrArg AppOwned.aRspValid hu⟩
  have ser {u : State} (hu : u.serOwned = s.serOwned) : u.sRsp = s.sRsp ∧ u.sRspValid = s.sRspValid :=
    ⟨congrArg SerOwned.sRsp hu, congrArg SerOwned.sRspValid hu⟩
  obtain ⟨happ, hser, hper, -⟩ := h.frame
  cases h with
  | @appCommand w =>
    obtain ⟨h₁, h₂⟩ := ser (happ rfl).1
    exact ⟨fun hne => absurd rfl (hne w), fun _ _ => ⟨h₁, fun _ => h₂⟩⟩
  | @serCommand w =>
    obtain ⟨h₁, h₂⟩ := app (hser rfl)
    exact ⟨fun _ => ⟨h₁, fun _ => h₂⟩, fun hne => absurd rfl (hne w)⟩
  | dispatched =>
    obtain ⟨h₁, h₂⟩ := app (hser rfl)
    exact ⟨fun _ => ⟨h₁, fun _ => h₂⟩, fun _ hne => absurd rfl hne⟩
  | appIdle => exact ⟨fun _ => ⟨rfl, fun hne => absurd rfl hne⟩, fun _ _ => ⟨rfl, fun _ => rfl⟩⟩
  | serIdle => exact ⟨fun _ => ⟨rfl, fun _ => rfl⟩, fun _ _ => ⟨rfl, fun hne => absurd rfl hne⟩⟩
  | @internal k =>
    obtain ⟨-, ha, hav, hs, hsv, -⟩ := s.internalEffect_frame k
    exact ⟨fun _ => ⟨ha, fun _ => hav⟩, fun _ _ => ⟨hs, fun _ => hsv⟩⟩
  | serIgnored | notDispatched | notEnabled | periphTxc | periphRxa =>
    exact ⟨fun _ => ⟨rfl, fun _ => rfl⟩, fun _ _ => ⟨rfl, fun _ => rfl⟩⟩

/-- An accepted command raises the valid output of its port (R118). -/
theorem Transition.valid (h : Transition s e t) :
    (∀ w, e = .appCmd w → t.aRspValid = true) ∧
    (∀ w, e = .serCmd w → s.serMode = .external → t.sRspValid = true) ∧
    (e = .dispatch → s.dispatchEnabled = true → t.sRspValid = true) ∧
    (e = .appIdle → t.aRspValid = false) ∧ (e = .serIdle → t.sRspValid = false) := by
  cases h with
  | @appCommand w t ht =>
    obtain ⟨-, -, -, hv⟩ := exec_app_frame (decode_fields .app w).1 ht
    simp [hv]
  | @serCommand w t _ ht =>
    obtain ⟨-, -, hv⟩ := exec_ser_frame (decode_fields .ser w).1 ht
    simp [hv]
  | dispatched _ ht =>
    obtain ⟨-, -, hv⟩ := exec_ser_frame rfl ht
    simp [hv]
  | serIgnored hm => simp [hm]
  | notDispatched hd => simp [hd]
  | _ => simp

/-- Settles O32: the response registers belong to their port's domain, and no other event of it writes them. -/
theorem responsesWrittenOnlyByCommands : Obligations.ResponsesWrittenOnlyByCommands := by
  intro e s t he h
  rcases transition_of_stepEvent he h with ⟨hr, rfl⟩ | ⟨hr, ht⟩
  · simp [hr]
  · obtain ⟨happ, hser⟩ := ht.responses
    obtain ⟨hac, hsc, hd, hai, hsi⟩ := ht.valid
    exact ⟨happ, hser, fun w he _ => hac w he, fun w he _ => hsc w he, fun he _ => hd he, fun _ => ⟨hai, hsi⟩⟩

/-! ### The peripheral strobes (R35; 60_exceptions.md R315) -/

/-- Of the commands only `S_ISR` raises a strobe. -/
theorem exec_strobes {i : Instr} (hi : ¬ (i.port = .ser ∧ opcodeOf i = 1)) (h : exec i s = .next t) :
    t.strobes = s.strobes := by
  cases i with
  | sIsr d => exact absurd ⟨rfl, rfl⟩ hi
  | sRxEnq b =>
    cases hf : s.rxf.wfull with
    | false => cases (exec_sRxEnq_accepts hf b).symm.trans h; rfl
    | true => cases (exec_sRxEnq_overflows hf b).symm.trans h; rfl
  | sTxDeq d =>
    cases hr : s.txf.rempty with
    | false => cases (exec_sTxDeq_takes hr d).symm.trans h; rfl
    | true => cases (exec_sTxDeq_absent hr d).symm.trans h; rfl
  | sNop _ | sTxCount _ | sTxFull _ | sReserved6 _ | sReserved7 _ | sReserved8 _ | sReserved9 _ | sReservedA _
  | sReservedB _ | sReservedC _ | sReservedD _ | sReservedE _ | sReservedF _ => cases h; rfl
  | _ => exact congrArg SerOwned.strobes (exec_app_frame rfl h).1

/-- The strobes of `S_ISR` on a state without strobes, each with its immediate effect. -/
theorem exec_sIsr_strobes {d : Byte} (h0 : s.strobes = Strobes.none) (h : exec (.sIsr d) s = .next t) :
    (t.strobes ≠ Strobes.none → s.irq = true) ∧
    (∀ b, t.strobes.pWr = some b → s.periph.txe = true ∧ s.armed = true ∧ t.periph.tdr = b ∧ t.periph.txe = false) ∧
    (t.strobes.pClrRxne = true → s.periph.rxne = true ∧ t.strobes.pRd = true ∧ t.periph.rxne = false) := by
  cases (exec_sIsr d s).symm.trans h
  have hstrobes : s.txChecked.rxChecked.strobes =
      { pWr := if s.takesTx then some (s.txf.byteAt s.txf.rhead) else none, pRd := s.rxp, pClrRxne := s.rxp } := by
    simp [State.rxChecked, State.txChecked, h0, Strobes.none, State.rxp]
  have htdr : s.txChecked.rxChecked.periph.tdr = if s.takesTx then s.txf.byteAt s.txf.rhead else s.periph.tdr := rfl
  have htxe : s.txChecked.rxChecked.periph.txe = (s.periph.txe && !s.takesTx) := rfl
  have htakes : s.takesTx = true → s.periph.txe = true ∧ s.armed = true := by
    simp +contextual [State.takesTx, State.txp]
  simp only [State.rspS_strobes, State.rspS_periph, hstrobes, htdr, htxe]
  refine ⟨fun hne => ?_, fun b hb => ?_, fun hc => ⟨hc, hc, rfl⟩⟩
  · cases hrx : s.rxp with
    | true => simp [State.irq, hrx]
    | false =>
      cases htx : s.takesTx with
      | true => simp [State.irq, State.txp, htakes htx]
      | false => simp [hrx, htx, Strobes.none] at hne
  · cases htx : s.takesTx with
    | true => simp_all
    | false => simp [htx] at hb

/-- An event that leaves a strobe up runs `S_ISR`. -/
theorem strobes_none_or_sIsr (h0 : s.strobes = Strobes.none) (h : stepEvent e s = .next t) :
    t.strobes = Strobes.none ∨ (s.inReset = false ∧ runsIsr e s = true ∧ ∃ d, exec (.sIsr d) s = .next t) := by
  cases he : isResetEvent e with
  | true =>
    obtain ⟨a, b, rfl⟩ := isResetEvent_iff.mp he
    rcases s.setResetPins_cases a b with ⟨-, -, e⟩ | ⟨-, -, -, e⟩ | ⟨-, e⟩ <;> cases e.symm.trans h
    · exact .inl h0
    · exact .inl rfl
  | false =>
    rcases transition_of_stepEvent he h with ⟨-, rfl⟩ | ⟨hr, ht⟩
    · exact .inl h0
    cases ht with
    | @appCommand w t ht =>
      obtain ⟨hser, -⟩ := exec_app_frame (decode_fields .app w).1 ht
      exact .inl ((congrArg SerOwned.strobes hser).trans h0)
    | @serCommand w t hm ht =>
      by_cases hop : opField w = 1
      · refine .inr ⟨hr, by simp [runsIsr, hm, hop], byteField w, ?_⟩
        rwa [decode_eq_commandAt, hop] at ht
      · obtain ⟨-, ho, -⟩ := decode_fields .ser w
        exact .inl ((exec_strobes (fun ⟨_, h1⟩ => hop (ho.symm.trans h1)) ht).trans h0)
    | dispatched hd ht => exact .inr ⟨hr, hd, 0, ht⟩
    | @internal k _ =>
      obtain ⟨-, -, -, -, -, hst, -⟩ := s.internalEffect_frame k
      exact .inl (hst.trans h0)
    | _ => exact .inl h0

/-- Settles O31: the strobes of the step are those of an `S_ISR`, or none. -/
theorem strobesOnlyInIsr : Obligations.StrobesOnlyInIsr := by
  intro e s t h
  have hruns : runsIsr e s.strobesDown = runsIsr e s := by cases e <;> rfl
  rcases strobes_none_or_sIsr rfl h with h0 | ⟨hr, hi, d, ht⟩
  · simp [h0, Strobes.none]
  · obtain ⟨hirq, hwr, hclr⟩ := exec_sIsr_strobes rfl ht
    exact ⟨fun hne => ⟨hr, hruns.symm.trans hi, hirq hne⟩, hwr, hclr⟩

/-! ### What a command reads (20_memory.md R84; 60_exceptions.md R310) -/

section
variable {x y : Fifo}

theorem Fifo.wfull_congr (ha : x.aw = y.aw) (hw : x.writeEnd = y.writeEnd) : x.wfull = y.wfull := by
  have hp : x.wptr = y.wptr := congrArg WriteEnd.wptr hw
  have hq : x.rq = y.rq := congrArg WriteEnd.rq hw
  simp only [Fifo.wfull, Fifo.wcount, Fifo.rqb, Fifo.capacity, ha, hp, hq]

theorem Fifo.rcount_congr (ha : x.aw = y.aw) (hr : x.readEnd = y.readEnd) : x.rcount = y.rcount := by
  have hd : x.drain = y.drain := congrArg ReadEnd.drain hr
  have hh : x.rhead = y.rhead := congrArg ReadEnd.rhead hr
  have hq : x.wq = y.wq := congrArg ReadEnd.wq hr
  simp only [Fifo.rcount, Fifo.wqb, ha, hd, hh, hq]

theorem Fifo.rempty_congr (ha : x.aw = y.aw) (hr : x.readEnd = y.readEnd) : x.rempty = y.rempty := by
  rw [Fifo.rempty, Fifo.rempty, Fifo.rcount_congr ha hr]

theorem Fifo.byteAt_rhead_congr (ha : x.aw = y.aw) (hr : x.readEnd = y.readEnd) (hm : x.mem = y.mem) :
    x.byteAt x.rhead = y.byteAt y.rhead := by
  have hh : x.rhead = y.rhead := congrArg ReadEnd.rhead hr
  simp only [Fifo.byteAt, ha, hh, hm]

theorem Fifo.push_writeEnd_congr (ha : x.aw = y.aw) (hw : x.writeEnd = y.writeEnd) (b : Byte) :
    (x.push b).writeEnd = (y.push b).writeEnd := by
  have hp : x.wptr = y.wptr := congrArg WriteEnd.wptr hw
  have hm : x.mem = y.mem := congrArg WriteEnd.mem hw
  have e : (y.push b).writeEnd =
      { y.writeEnd with mem := y.mem.write (slotOf y.aw y.wptr) b, wptr := ptrSucc y.aw y.wptr } := rfl
  rw [e, ← hw, ← ha, ← hp, ← hm]
  rfl

theorem Fifo.flushReq_writeEnd_congr (hw : x.writeEnd = y.writeEnd) : x.flushReq.writeEnd = y.flushReq.writeEnd := by
  have e (z : Fifo) : z.flushReq.writeEnd = if z.writeEnd.flReq = z.writeEnd.fa then
      { z.writeEnd with flMark := z.writeEnd.wptr, flReq := !z.writeEnd.flReq }
      else { z.writeEnd with flNext := z.writeEnd.wptr, flPend := true } := by
    rw [z.flushReq_eq]
    exact apply_ite Fifo.writeEnd ..
  rw [e, e, hw]

theorem Fifo.pop_readEnd_congr (ha : x.aw = y.aw) (hr : x.readEnd = y.readEnd) : x.pop.readEnd = y.pop.readEnd := by
  have e (z : Fifo) : z.pop.readEnd = { z.readEnd with rhead := ptrSucc z.aw z.readEnd.rhead } := rfl
  rw [e, e, ha, hr]

end

theorem State.txChecked_readEnd (s : State) :
    s.txChecked.txf.readEnd = if s.takesTx then s.txf.pop.readEnd else s.txf.readEnd := apply_ite Fifo.readEnd ..

theorem State.txChecked_rxChecked_writeEnd (s : State) :
    s.txChecked.rxChecked.rxf.writeEnd =
      if s.rxp then (if s.rxf.wfull then s.rxf.flushReq.writeEnd else (s.rxf.push s.periph.rdr).writeEnd)
      else s.rxf.writeEnd := by
  change (if s.rxp then (if s.rxf.wfull then s.rxf.flushReq else s.rxf.push s.periph.rdr) else s.rxf).writeEnd = _
  rw [apply_ite Fifo.writeEnd, apply_ite Fifo.writeEnd]

/-- An answer depends on the values answered, whatever the state below. -/
theorem State.rspA_appOwned_congr {u u' : State} {v v' : Count} {f f' g h : Bool} (hu : u.appOwned = u'.appOwned)
    (hv : v = v') (hf : f = f') : (u.rspA v f g h).appOwned = (u'.rspA v' f' g h).appOwned := by
  subst hv hf
  exact congrArg (fun a : AppOwned => { a with aRsp := ⟨v, f, g, h⟩, aRspValid := true }) hu

theorem State.rspS_serOwned_congr {u u' : State} {v v' : Count} {f f' g g' h : Bool} (hu : u.serOwned = u'.serOwned)
    (hv : v = v') (hf : f = f') (hg : g = g') : (u.rspS v f g h).serOwned = (u'.rspS v' f' g' h).serOwned := by
  subst hv hf hg
  exact congrArg (fun a : SerOwned => { a with sRsp := ⟨v, f, g, h⟩, sRspValid := true }) hu

section
variable {s s' : State} (htx : s.txf.aw = s'.txf.aw) (hrx : s.rxf.aw = s'.rxf.aw)
include htx hrx

/-- An APP command on two states that agree on the APP registers and on the storage of RXF. -/
theorem exec_app_congr {i : Instr} (hp : i.port = .app) (hown : s.appOwned = s'.appOwned)
    (hmem : s.rxf.mem = s'.rxf.mem) :
    ∃ t t', exec i s = .next t ∧ exec i s' = .next t' ∧ t.appOwned = t'.appOwned := by
  have hw : s.txf.writeEnd = s'.txf.writeEnd := congrArg AppOwned.txWrite hown
  have hr : s.rxf.readEnd = s'.rxf.readEnd := congrArg AppOwned.rxRead hown
  have hfull := Fifo.wfull_congr htx hw
  have hempty := Fifo.rempty_congr hrx hr
  cases i with
  | aTxEnq b =>
    cases hf : s.txf.wfull with
    | false =>
      refine ⟨_, _, exec_aTxEnq_accepts hf b, exec_aTxEnq_accepts (hfull.symm.trans hf) b, ?_⟩
      exact State.rspA_appOwned_congr (congrArg₂ (fun (a : AppOwned) w => { a with txWrite := w }) hown
        (Fifo.push_writeEnd_congr htx hw b)) rfl rfl
    | true =>
      refine ⟨_, _, exec_aTxEnq_overflows hf b, exec_aTxEnq_overflows (hfull.symm.trans hf) b, ?_⟩
      have e (u : State) : State.appOwned { u with txf := u.txf.flushReq, errTx := true } =
          { u.appOwned with txWrite := u.txf.flushReq.writeEnd, errTx := true } := by simp [State.appOwned]
      exact State.rspA_appOwned_congr (by rw [e, e, hown, Fifo.flushReq_writeEnd_congr hw]) rfl rfl
  | aRxDeq d =>
    cases he : s.rxf.rempty with
    | false =>
      refine ⟨_, _, exec_aRxDeq_takes he d, exec_aRxDeq_takes (hempty.symm.trans he) d, ?_⟩
      exact State.rspA_appOwned_congr (congrArg₂ (fun (a : AppOwned) w => { a with rxRead := w }) hown
        (Fifo.pop_readEnd_congr hrx hr)) (congrArg zextByte (Fifo.byteAt_rhead_congr hrx hr hmem)) rfl
    | true =>
      exact ⟨_, _, exec_aRxDeq_absent he d, exec_aRxDeq_absent (hempty.symm.trans he) d,
        State.rspA_appOwned_congr hown rfl rfl⟩
  | aErrClr d =>
    refine ⟨_, _, rfl, rfl, State.rspA_appOwned_congr ?_ rfl rfl⟩
    have e (u : State) : (State.requestErrClear { u with errTx := false }).appOwned =
        if u.appOwned.ecReq = u.appOwned.ecAckQ then { u.appOwned with errTx := false, ecReq := !u.appOwned.ecReq }
        else { u.appOwned with errTx := false, ecPend := true } := by
      rcases State.requestErrClear_cases { u with errTx := false } with ⟨h, e⟩ | ⟨h, e⟩ <;> rw [e]
      · exact (if_pos h).symm
      · exact (if_neg h).symm
    rw [e, e, hown]
  | aTxCount d =>
    have hp : s.txf.wptr = s'.txf.wptr := congrArg WriteEnd.wptr hw
    have hq : s.txf.rq = s'.txf.rq := congrArg WriteEnd.rq hw
    exact ⟨_, _, rfl, rfl, State.rspA_appOwned_congr hown (by simp only [Fifo.wcount, Fifo.rqb, htx, hp, hq]) rfl⟩
  | aTxFull d => exact ⟨_, _, rfl, rfl, State.rspA_appOwned_congr hown rfl hfull⟩
  | aRxCount d =>
    exact ⟨_, _, rfl, rfl, State.rspA_appOwned_congr hown (congrArg countField (Fifo.rcount_congr hrx hr)) rfl⟩
  | aErrRead d =>
    have ht : s.errTx = s'.errTx := congrArg AppOwned.errTx hown
    have hq : s.errRxQ = s'.errRxQ := congrArg AppOwned.errRxQ hown
    exact ⟨_, _, rfl, rfl, State.rspA_appOwned_congr hown (by simp only [State.errCause, ht, hq])
      (by rw [State.err, State.err, ht, hq])⟩
  | aNop _ | aReserved8 _ | aReserved9 _ | aReservedA _ | aReservedB _ | aReservedC _ | aReservedD _ | aReservedE _
  | aReservedF _ => exact ⟨_, _, rfl, rfl, State.rspA_appOwned_congr hown rfl rfl⟩
  | _ => cases hp

/-- A SER command on two states that agree on the SER registers, on the storage of TXF, and on the peripheral. -/
theorem exec_ser_congr {i : Instr} (hp : i.port = .ser) (hown : s.serOwned = s'.serOwned)
    (hmem : s.txf.mem = s'.txf.mem) (hper : s.periph = s'.periph) :
    ∃ t t', exec i s = .next t ∧ exec i s' = .next t' ∧ t.serOwned = t'.serOwned ∧ t.periph = t'.periph := by
  have hr : s.txf.readEnd = s'.txf.readEnd := congrArg SerOwned.txRead hown
  have hw : s.rxf.writeEnd = s'.rxf.writeEnd := congrArg SerOwned.rxWrite hown
  have hfull := Fifo.wfull_congr hrx hw
  have hempty := Fifo.rempty_congr htx hr
  have hbyte := Fifo.byteAt_rhead_congr htx hr hmem
  cases i with
  | sRxEnq b =>
    cases hf : s.rxf.wfull with
    | false =>
      refine ⟨_, _, exec_sRxEnq_accepts hf b, exec_sRxEnq_accepts (hfull.symm.trans hf) b, ?_, hper⟩
      exact State.rspS_serOwned_congr (congrArg₂ (fun (a : SerOwned) w => { a with rxWrite := w }) hown
        (Fifo.push_writeEnd_congr hrx hw b)) rfl rfl rfl
    | true =>
      refine ⟨_, _, exec_sRxEnq_overflows hf b, exec_sRxEnq_overflows (hfull.symm.trans hf) b, ?_, hper⟩
      exact State.rspS_serOwned_congr (congrArg₂ (fun (a : SerOwned) w => { a with rxWrite := w, errRx := true }) hown
        (Fifo.flushReq_writeEnd_congr hw)) rfl rfl rfl
  | sTxDeq d =>
    cases he : s.txf.rempty with
    | false =>
      refine ⟨_, _, exec_sTxDeq_takes he d, exec_sTxDeq_takes (hempty.symm.trans he) d, ?_, hper⟩
      exact State.rspS_serOwned_congr (congrArg₂ (fun (a : SerOwned) w => { a with txRead := w }) hown
        (Fifo.pop_readEnd_congr htx hr)) (congrArg zextByte hbyte) rfl rfl
    | true =>
      refine ⟨_, _, exec_sTxDeq_absent he d, exec_sTxDeq_absent (hempty.symm.trans he) d, ?_, hper⟩
      exact State.rspS_serOwned_congr (congrArg (fun a : SerOwned => { a with armed := false }) hown) rfl rfl rfl
  | sIsr d =>
    have harmed : s.armed = s'.armed := congrArg SerOwned.armed hown
    have htxp : s.txp = s'.txp := by rw [State.txp, State.txp, hper, harmed]
    have htakes : s.takesTx = s'.takesTx := by rw [State.takesTx, State.takesTx, htxp, hempty]
    have hrxp : s.rxp = s'.rxp := congrArg Periph.rxne hper
    have hrdr : s.periph.rdr = s'.periph.rdr := congrArg Periph.rdr hper
    have e (u : State) : u.txChecked.rxChecked.serOwned =
        { u.serOwned with
          txRead := if u.takesTx then u.txf.pop.readEnd else u.txf.readEnd
          armed := u.armed && !(u.txp && u.txf.rempty)
          rxWrite := if u.rxp then (if u.rxf.wfull then u.rxf.flushReq.writeEnd
            else (u.rxf.push u.periph.rdr).writeEnd) else u.rxf.writeEnd
          errRx := u.serOwned.errRx || (u.rxp && u.rxf.wfull)
          strobes := u.txChecked.rxChecked.strobes } := by
      rw [← u.txChecked_readEnd, ← u.txChecked_rxChecked_writeEnd]
      rfl
    have hst : s.txChecked.rxChecked.strobes = s'.txChecked.rxChecked.strobes := by
      have h0 : s.strobes = s'.strobes := congrArg SerOwned.strobes hown
      simp only [State.rxChecked, State.txChecked, State.rxp, htakes, hbyte, h0, hper]
    have hp : s.txChecked.rxChecked.periph = s'.txChecked.rxChecked.periph := by
      simp only [State.rxChecked, State.txChecked, htakes, hbyte, hper]
    refine ⟨_, _, exec_sIsr d s, exec_sIsr d s', State.rspS_serOwned_congr ?_ ?_ htakes hrxp, hp⟩
    · rw [e, e, hown, hst, htakes, Fifo.pop_readEnd_congr htx hr, hr, harmed, htxp, hempty, hrxp, hfull,
        Fifo.flushReq_writeEnd_congr hw, hrdr, Fifo.push_writeEnd_congr hrx hw, hw]
    · rw [hrxp, hrdr, htakes, hbyte]
  | sTxCount d =>
    exact ⟨_, _, rfl, rfl, State.rspS_serOwned_congr hown (congrArg countField (Fifo.rcount_congr htx hr)) rfl rfl, hper⟩
  | sTxFull d =>
    have hrfull : s.txf.rfull = s'.txf.rfull := by
      rw [Fifo.rfull, Fifo.rfull, Fifo.rcount_congr htx hr, Fifo.capacity, Fifo.capacity, htx]
    exact ⟨_, _, rfl, rfl, State.rspS_serOwned_congr hown rfl hrfull rfl, hper⟩
  | sNop _ | sReserved6 _ | sReserved7 _ | sReserved8 _ | sReserved9 _ | sReservedA _ | sReservedB _ | sReservedC _
  | sReservedD _ | sReservedE _ | sReservedF _ => exact ⟨_, _, rfl, rfl, State.rspS_serOwned_congr hown rfl rfl rfl, hper⟩
  | _ => cases hp

end

/-- Settles O46: by the frame of the port, and what its commands read. -/
theorem commandsReadTheirOwnDomain : Obligations.CommandsReadTheirOwnDomain := by
  refine fun i s s' htx hrx => ⟨fun hp hown hmem => ?_, fun hp hown hmem hper => ?_⟩
  · obtain ⟨t, t', ht, ht', happ⟩ := exec_app_congr htx hrx hp hown hmem
    obtain ⟨hser, hper, -⟩ := exec_app_frame hp ht
    exact ⟨t, t', ht, ht', happ, hser, hper⟩
  · obtain ⟨t, t', ht, ht', hser, hper'⟩ := exec_ser_congr htx hrx hp hown hmem hper
    exact ⟨t, t', ht, ht', hser, hper', (exec_ser_frame hp ht).1⟩

end

end Sys2Proof.Machine

/-! SUPPORT. What an event does to one FIFO, and that it keeps the invariant (10_state.md R49). -/

namespace Sys2Proof.Machine

/-! ### What an event does to one FIFO (R36 to R39; 42_cdc_steps.md R251 to R258) -/

/-- The moves of FIFO `f` in an event, with the bytes accepted, taken and discarded. -/
inductive FifoMove (f : FifoId) (e : Event) (x : Fifo) : List Byte → List Byte → List Byte → Fifo → Prop where
  | stay : FifoMove f e x [] [] [] x
  | push {b : Byte} (h : x.wfull = false) : FifoMove f e x [b] [] [] (x.push b)
  | overflow (h : x.wfull = true) : FifoMove f e x [] [] [] x.flushReq
  | pop (h : x.rempty = false) : FifoMove f e x [] [x.byteAt x.rhead] [] x.pop
  | wPub (he : e = .internal (.wPub f)) (h : x.wpub ≠ x.lim) : FifoMove f e x [] [] [] x.wPub
  | rPub (he : e = .internal (.rPub f)) (h : x.rpub ≠ x.rhead) : FifoMove f e x [] [] [] x.rPub
  | syncR2W {v : Nat} (he : e = .internal (.syncR2W f v)) (h : x.rqb ≠ x.rpub)
      (hv : drawAdmitted x.aw v x.rqb x.rpub = true) : FifoMove f e x [] [] [] (x.syncR2W v)
  | syncW2R {v : Nat} (he : e = .internal (.syncW2R f v)) (h : x.wqb ≠ x.wpub)
      (hv : drawAdmitted x.aw v x.wqb x.wpub = true) :
      FifoMove f e x [] [] (if x.drain then x.skippedTo (x.syncW2R v) else []) (x.syncW2R v)
  | capture (he : e = .internal (.capture f)) (h : x.fr ≠ x.flReq) :
      FifoMove f e x [] [] (x.skippedTo x.capture) x.capture
  | ackSync (he : e = .internal (.ackSync f)) (h : x.fa ≠ x.flAck) : FifoMove f e x [] [] [] x.ackSync

/-- A FIFO after a command that takes from its read end or offers a byte to its write end. -/
def Fifo.commanded (x : Fifo) (takes : Bool) (offer : Option Byte) : Fifo :=
  match takes && !x.rempty, offer with
  | true, _ => x.pop
  | false, some b => if x.wfull then x.flushReq else x.push b
  | false, none => x

section
variable {x : Fifo}

@[simp] theorem Fifo.commanded_nothing : x.commanded false none = x := rfl

@[simp] theorem Fifo.commanded_offer (b : Byte) :
    x.commanded false (some b) = if x.wfull then x.flushReq else x.push b := rfl

@[simp] theorem Fifo.commanded_take : x.commanded true none = if x.rempty then x else x.pop := by
  unfold Fifo.commanded
  cases x.rempty <;> rfl

end

section
variable {e : Event} {s t : State} {i : Instr}

/-- `A_TX_ENQ` and `S_RX_ENQ` offer a byte to the write end of their FIFO. -/
theorem exec_enqueue_fifo {b : Byte} (hi : i = .aTxEnq b ∨ i = .sRxEnq b) (h : exec i s = .next t) (f : FifoId) :
    t.fifo f = (s.fifo f).commanded (takesFrom f i s) (offersTo f i s) := by
  rcases hi with rfl | rfl
  · cases hf : s.txf.wfull with
    | false =>
      cases (exec_aTxEnq_accepts hf b).symm.trans h
      cases f <;> simp [takesFrom, offersTo, Instr.port, opcodeOf, byteOf, hf]
    | true =>
      cases (exec_aTxEnq_overflows hf b).symm.trans h
      cases f <;> simp [takesFrom, offersTo, Instr.port, opcodeOf, byteOf, hf]
  · cases hf : s.rxf.wfull with
    | false =>
      cases (exec_sRxEnq_accepts hf b).symm.trans h
      cases f <;> simp [takesFrom, offersTo, Instr.port, opcodeOf, byteOf, hf]
    | true =>
      cases (exec_sRxEnq_overflows hf b).symm.trans h
      cases f <;> simp [takesFrom, offersTo, Instr.port, opcodeOf, byteOf, hf]

/-- `A_RX_DEQ` and `S_TX_DEQ` take from the read end of their FIFO. -/
theorem exec_dequeue_fifo {d : Byte} (hi : i = .aRxDeq d ∨ i = .sTxDeq d) (h : exec i s = .next t) (f : FifoId) :
    t.fifo f = (s.fifo f).commanded (takesFrom f i s) (offersTo f i s) := by
  rcases hi with rfl | rfl
  · cases hr : s.rxf.rempty with
    | false =>
      cases (exec_aRxDeq_takes hr d).symm.trans h
      cases f <;> simp [takesFrom, offersTo, Instr.port, opcodeOf, hr]
    | true =>
      cases (exec_aRxDeq_absent hr d).symm.trans h
      cases f <;> simp [takesFrom, offersTo, Instr.port, opcodeOf, hr]
  · cases hr : s.txf.rempty with
    | false =>
      cases (exec_sTxDeq_takes hr d).symm.trans h
      cases f <;> simp [takesFrom, offersTo, Instr.port, opcodeOf, hr]
    | true =>
      cases (exec_sTxDeq_absent hr d).symm.trans h
      cases f <;> simp [takesFrom, offersTo, Instr.port, opcodeOf, hr]

@[simp] theorem State.txChecked_rxf (s : State) : s.txChecked.rxf = s.rxf := rfl

@[simp] theorem State.txChecked_rxp (s : State) : s.txChecked.rxp = s.rxp := rfl

@[simp] theorem State.txChecked_rdr (s : State) : s.txChecked.periph.rdr = s.periph.rdr := rfl

/-- `S_ISR` takes from TXF in check 1 and offers a byte to RXF in check 2. -/
theorem exec_sIsr_fifo {d : Byte} (h : exec (.sIsr d) s = .next t) (f : FifoId) :
    t.fifo f = (s.fifo f).commanded (takesFrom f (.sIsr d) s) (offersTo f (.sIsr d) s) := by
  cases (exec_sIsr d s).symm.trans h
  cases f with
  | tx =>
    cases ht : s.txp <;> cases hr : s.txf.rempty <;>
      simp [State.rxChecked, State.txChecked, State.takesTx, takesFrom, offersTo, Instr.port, opcodeOf, ht, hr]
  | rx =>
    cases hr : s.rxp <;> cases hf : s.rxf.wfull <;>
      simp [State.rxChecked, takesFrom, offersTo, Instr.port, opcodeOf, hr, hf]

/-- What a command does to each FIFO. -/
theorem exec_fifo (h : exec i s = .next t) (f : FifoId) :
    t.fifo f = (s.fifo f).commanded (takesFrom f i s) (offersTo f i s) := by
  cases i with
  | aTxEnq b => exact exec_enqueue_fifo (.inl rfl) h f
  | sRxEnq b => exact exec_enqueue_fifo (.inr rfl) h f
  | aRxDeq d => exact exec_dequeue_fifo (.inl rfl) h f
  | sTxDeq d => exact exec_dequeue_fifo (.inr rfl) h f
  | sIsr d => exact exec_sIsr_fifo h f
  | aErrClr d =>
    cases h
    rcases State.requestErrClear_cases { s with errTx := false } with ⟨-, e⟩ | ⟨-, e⟩ <;> rw [e] <;> cases f <;> rfl
  | _ =>
    cases h
    cases f <;> rfl

/-- The two ends of a FIFO belong to different ports, so a command works on one of them. -/
theorem takesFrom_or_offersTo_nothing (f : FifoId) (i : Instr) (s : State) :
    takesFrom f i s = false ∨ offersTo f i s = none := by
  cases f <;> cases hp : i.port <;> simp [takesFrom, offersTo, hp]

/-- A command as a move of each FIFO. -/
theorem fifoMove_of_exec (f : FifoId) (h : exec i s = .next t) :
    FifoMove f e (s.fifo f) (if (s.fifo f).wfull then [] else (offersTo f i s).toList)
      (if takesFrom f i s && !(s.fifo f).rempty then [(s.fifo f).byteAt (s.fifo f).rhead] else []) [] (t.fifo f) := by
  rw [exec_fifo h f]
  rcases takesFrom_or_offersTo_nothing f i s with ht | ho
  · cases ho : offersTo f i s with
    | none => simpa [ht] using FifoMove.stay
    | some b =>
      cases hf : (s.fifo f).wfull with
      | false => simpa [ht, hf] using FifoMove.push hf
      | true => simpa [ht, hf] using FifoMove.overflow hf
  · cases ht : takesFrom f i s with
    | false => simpa [ho] using FifoMove.stay
    | true =>
      cases hr : (s.fifo f).rempty with
      | false => simpa [ho, hr] using FifoMove.pop hr
      | true => simpa [ho, hr] using FifoMove.stay

theorem State.setFifo_fifo_of_ne {s : State} {f g : FifoId} (h : g ≠ f) (y : Fifo) :
    (s.setFifo g y).fifo f = s.fifo f := by
  cases f with
  | tx =>
    cases g with
    | tx => exact absurd rfl h
    | rx => rfl
  | rx =>
    cases g with
    | tx => rfl
    | rx => exact absurd rfl h

/-- An enabled internal step as a move of each FIFO. -/
theorem fifoMove_of_internal {k : InternalStep} (f : FifoId) (hr : s.inReset = false)
    (hk : s.internalEnabled k = true) :
    FifoMove f (.internal k) (s.fifo f) [] [] (discardedBy f (.internal k) s) ((s.internalEffect k).fifo f) := by
  cases k with
  | wPub g =>
    by_cases hg : g = f
    · subst hg
      simpa [State.internalEffect, discardedBy] using FifoMove.wPub rfl (State.internalEnabled_wPub_iff.mp hk)
    · simpa [State.internalEffect, discardedBy, State.setFifo_fifo_of_ne hg] using FifoMove.stay
  | rPub g =>
    by_cases hg : g = f
    · subst hg
      simpa [State.internalEffect, discardedBy] using FifoMove.rPub rfl (State.internalEnabled_rPub_iff.mp hk)
    · simpa [State.internalEffect, discardedBy, State.setFifo_fifo_of_ne hg] using FifoMove.stay
  | syncR2W g v =>
    by_cases hg : g = f
    · subst hg
      obtain ⟨hne, hv⟩ := State.internalEnabled_syncR2W_iff.mp hk
      simpa [State.internalEffect, discardedBy] using FifoMove.syncR2W rfl hne hv
    · simpa [State.internalEffect, discardedBy, State.setFifo_fifo_of_ne hg] using FifoMove.stay
  | syncW2R g v =>
    by_cases hg : g = f
    · subst hg
      obtain ⟨hne, hv⟩ := State.internalEnabled_syncW2R_iff.mp hk
      simpa [State.internalEffect, discardedBy, hr, hk] using FifoMove.syncW2R rfl hne hv
    · simpa [State.internalEffect, discardedBy, State.setFifo_fifo_of_ne hg, hg] using FifoMove.stay
  | capture g =>
    by_cases hg : g = f
    · subst hg
      simpa [State.internalEffect, discardedBy, hr, hk] using
        FifoMove.capture rfl (State.internalEnabled_capture_iff.mp hk)
    · simpa [State.internalEffect, discardedBy, State.setFifo_fifo_of_ne hg, hg] using FifoMove.stay
  | ackSync g =>
    by_cases hg : g = f
    · subst hg
      simpa [State.internalEffect, discardedBy] using FifoMove.ackSync rfl (State.internalEnabled_ackSync_iff.mp hk)
    · simpa [State.internalEffect, discardedBy, State.setFifo_fifo_of_ne hg] using FifoMove.stay
  | errRxSync | ecReqSync => cases f <;> exact .stay
  | ecAckSync =>
    rcases s.ecAckSync_cases with ⟨-, -, e⟩ | ⟨-, e⟩ <;> rw [State.internalEffect, e] <;> cases f <;> exact .stay

@[simp] theorem acceptedBy_internal (f : FifoId) (k : InternalStep) (s : State) : acceptedBy f (.internal k) s = [] := by
  cases f <;> simp [acceptedBy, offeredBy]

@[simp] theorem takenBy_internal (f : FifoId) (k : InternalStep) (s : State) : takenBy f (.internal k) s = [] := by
  simp [takenBy]

/-- An event that asks nothing, offers nothing and discards nothing. -/
theorem fifoMove_stay {f : FifoId} {x : Fifo} (ho : offeredBy f e s = none) (ha : asksFor f e s = false)
    (hd : discardedBy f e s = []) : FifoMove f e x (acceptedBy f e s) (takenBy f e s) (discardedBy f e s) x := by
  simpa [acceptedBy, takenBy, ho, ha, hd] using FifoMove.stay

theorem discardedBy_of_not_internal (f : FifoId) (s : State) (h : ∀ k, e ≠ .internal k) : discardedBy f e s = [] := by
  cases e with
  | internal k => exact absurd rfl (h k)
  | _ => rfl

theorem discardedBy_of_not_enabled (f : FifoId) {k : InternalStep} (h : s.internalEnabled k = false) :
    discardedBy f (.internal k) s = [] := by
  cases k <;> simp [discardedBy, h]

theorem discardedBy_inReset (f : FifoId) (h : s.inReset = true) : discardedBy f e s = [] := by
  rcases discardedBy_cases f e s with h' | ⟨h', -⟩ | ⟨_, -, h', -⟩
  · exact h'
  · simp [capturesFlush, h] at h'
  · exact absurd (h'.symm.trans h) Bool.false_ne_true

theorem fifoMove_of_transition (f : FifoId) (hr : s.inReset = false) (h : Transition s e t) :
    FifoMove f e (s.fifo f) (acceptedBy f e s) (takenBy f e s) (discardedBy f e s) (t.fifo f) := by
  cases h with
  | appCommand ht =>
    rw [acceptedBy, takenBy, offeredBy_appCmd hr, asksFor_appCmd hr, discardedBy_of_not_internal f s (by simp)]
    exact fifoMove_of_exec f ht
  | serCommand hm ht =>
    rw [acceptedBy, takenBy, offeredBy_serCmd_external hr hm, asksFor_serCmd_external hr hm,
      discardedBy_of_not_internal f s (by simp)]
    exact fifoMove_of_exec f ht
  | dispatched hd ht =>
    rw [acceptedBy, takenBy, offeredBy_dispatch_enabled hr hd, asksFor_dispatch_enabled hr hd,
      discardedBy_of_not_internal f s (by simp)]
    exact fifoMove_of_exec f ht
  | serIgnored hm => exact fifoMove_stay (offeredBy_serCmd_auto hm f _) (asksFor_serCmd_auto hm f _) rfl
  | notDispatched hd => exact fifoMove_stay (offeredBy_dispatch_disabled hd f) (asksFor_dispatch_disabled hd f) rfl
  | internal hk =>
    rw [acceptedBy_internal, takenBy_internal]
    exact fifoMove_of_internal f hr hk
  | notEnabled hk =>
    rw [acceptedBy_internal, takenBy_internal, discardedBy_of_not_enabled f hk]
    exact .stay
  | appIdle | serIdle | periphTxc | periphRxa =>
    cases f <;> exact fifoMove_stay (by simp [offeredBy]) (by simp [asksFor]) rfl

/-- Every event but a reset is a move of each FIFO, which accepts, takes and discards what the event does. -/
theorem fifoMove_of_stepEvent (f : FifoId) (he : isResetEvent e = false) (h : stepEvent e s = .next t) :
    FifoMove f e (s.fifo f) (acceptedBy f e s) (takenBy f e s) (discardedBy f e s) (t.fifo f) := by
  rcases transition_of_stepEvent he h with ⟨hr, rfl⟩ | ⟨hr, ht⟩
  · exact fifoMove_stay (offeredBy_inReset hr f e) (asksFor_inReset hr f e) (discardedBy_inReset f hr)
  · exact fifoMove_of_transition f hr ht

end

end Sys2Proof.Machine

/-! SUPPORT. The invariant of one FIFO (10_state.md R49): every move keeps it. -/

namespace Sys2Proof.Machine

/-! ### R49 in plain numbers

`Fifo.Inv` compares distances from the producer's view, and `Fifo.Follows` positions counted from reset. A `Standing`
holds positions as numbers, so that what a move does to the order of R49 is one statement of linear arithmetic for
both; `Fifo.inv_iff` ties it to the invariant. -/

/-- The positions that R49 compares, and the bits of the flush handshake. -/
structure Standing where
  rqb : Nat
  wptr : Nat
  wpub : Nat
  wqb : Nat
  rhead : Nat
  rpub : Nat
  mark : Nat
  next : Nat
  target : Nat
  flReq : Bool
  fa : Bool
  fr : Bool
  flAck : Bool
  flPend : Bool
  drain : Bool

/-- The publish limit (R42). -/
def Standing.lim (v : Standing) : Nat := if v.flReq = v.fa then v.wptr else v.mark

/-- Items 1 to 4 of R49, for a FIFO of capacity `C`. -/
structure Standing.Ordered (v : Standing) (C : Nat) : Prop where
  rqb_le : v.rqb ≤ v.rpub
  rpub_le : v.rpub ≤ v.rhead
  rhead_le : v.rhead ≤ v.wqb
  wqb_le : v.wqb ≤ v.wpub
  wpub_le : v.wpub ≤ v.wptr
  wptr_le : v.wptr ≤ v.rqb + C
  wpub_le_lim : v.wpub ≤ v.lim
  mark_le : v.flReq ≠ v.fa → v.mark ≤ v.wptr
  fr_eq : v.fr = v.flAck
  phase : v.flReq = v.flAck ∨ v.fa = v.flAck
  pend : v.flPend = true → v.flReq ≠ v.fa ∧ v.mark ≤ v.next ∧ v.next ≤ v.wptr
  rhead_le_mark : v.flReq ≠ v.flAck → v.rhead ≤ v.mark
  draining : v.drain = true → v.rhead = v.wqb ∧ v.rhead < v.target ∧ v.target ≤ v.wptr ∧
    (v.flReq ≠ v.fa → v.target ≤ v.mark)

/-- All items as one statement of linear arithmetic. -/
theorem Standing.ordered_iff {v : Standing} {C : Nat} :
    v.Ordered C ↔ (v.rqb ≤ v.rpub ∧ v.rpub ≤ v.rhead ∧ v.rhead ≤ v.wqb ∧ v.wqb ≤ v.wpub ∧ v.wpub ≤ v.wptr ∧
        v.wptr ≤ v.rqb + C) ∧
      (v.wpub ≤ v.lim ∧ (v.flReq ≠ v.fa → v.mark ≤ v.wptr)) ∧
      (v.fr = v.flAck ∧ (v.flReq = v.flAck ∨ v.fa = v.flAck) ∧
        (v.flPend = true → v.flReq ≠ v.fa ∧ v.mark ≤ v.next ∧ v.next ≤ v.wptr) ∧
        (v.flReq ≠ v.flAck → v.rhead ≤ v.mark)) ∧
      (v.drain = true → v.rhead = v.wqb ∧ v.rhead < v.target ∧ v.target ≤ v.wptr ∧
        (v.flReq ≠ v.fa → v.target ≤ v.mark)) :=
  ⟨fun ⟨c0, c1, c2, c3, c4, c5, p1, p2, f1, f2, f3, f4, d⟩ => ⟨⟨c0, c1, c2, c3, c4, c5⟩, ⟨p1, p2⟩, ⟨f1, f2, f3, f4⟩, d⟩,
    fun ⟨⟨c0, c1, c2, c3, c4, c5⟩, ⟨p1, p2⟩, ⟨f1, f2, f3, f4⟩, d⟩ => ⟨c0, c1, c2, c3, c4, c5, p1, p2, f1, f2, f3, f4, d⟩⟩

/-- Where a FIFO stands, counted from the producer's view. -/
def Fifo.standing (x : Fifo) : Standing :=
  { rqb := 0, wptr := x.pos x.wptr, wpub := x.pos x.wpub, wqb := x.pos x.wqb, rhead := x.pos x.rhead, rpub := x.pos x.rpub,
    mark := x.pos x.flMark, next := x.pos x.flNext, target := x.pos x.target,
    flReq := x.flReq, fa := x.fa, fr := x.fr, flAck := x.flAck, flPend := x.flPend, drain := x.drain }

section
variable {x : Fifo} {p q : Ptr}

theorem Fifo.ptrModulus_eq_capacity (x : Fifo) : ptrModulus x.aw = 2 * x.capacity := ptrModulus_eq x.aw

theorem Fifo.InRange.rqb (h : x.InRange) : inRange x.aw x.rqb = true := by
  obtain ⟨⟨-, -, hrq, -⟩, -⟩ := h
  exact inRange_ungray hrq

theorem Fifo.InRange.wqb (h : x.InRange) : inRange x.aw x.wqb = true := by
  obtain ⟨⟨-, -, -, -, -, -, -, hwq, -⟩, -⟩ := h
  exact inRange_ungray hwq

/-- Pointers at one position are equal. -/
theorem Fifo.eq_of_pos_eq (h : x.InRange) (hp : inRange x.aw p = true) (hq : inRange x.aw q = true)
    (e : x.pos p = x.pos q) : p = q := eq_of_dist_eq hp hq h.rqb e

theorem Fifo.pos_eq_iff (h : x.InRange) (hp : inRange x.aw p = true) (hq : inRange x.aw q = true) :
    x.pos p = x.pos q ↔ p = q := ⟨Fifo.eq_of_pos_eq h hp hq, fun e => e ▸ rfl⟩

/-- The distance of pointers in order is the difference of their positions. -/
theorem Fifo.dist_eq_pos_sub (h : x.InRange) (hp : inRange x.aw p = true) (hq : inRange x.aw q = true)
    (hle : x.pos q ≤ x.pos p) : dist x.aw p q = x.pos p - x.pos q := dist_eq_sub_of_le hp hq h.rqb hle

/-- The position after one increment, below the modulus. -/
theorem Fifo.pos_ptrSucc (h : x.InRange) (hp : inRange x.aw p = true) (hlt : x.pos p < x.capacity) :
    x.pos (ptrSucc x.aw p) = x.pos p + 1 :=
  dist_ptrSucc hp h.rqb (by
    have := x.ptrModulus_eq_capacity
    rw [Fifo.pos] at hlt
    omega)

theorem Fifo.pos_lim (x : Fifo) : x.pos x.lim = x.standing.lim := by
  rw [Fifo.lim_eq, Standing.lim]
  by_cases h : x.flReq = x.fa <;> simp [Fifo.standing, h]

/-- The invariant of R49 in numbers. -/
theorem Fifo.inv_iff : x.Inv ↔ x.InRange ∧ x.standing.Ordered x.capacity := by
  refine and_congr_right fun hr => ?_
  have hdrain : x.rhead = x.wqb ↔ x.pos x.rhead = x.pos x.wqb :=
    (Fifo.pos_eq_iff hr (by simp [hr]) hr.wqb).symm
  have hdist (h : x.pos x.rhead ≤ x.pos x.target) := Fifo.dist_eq_pos_sub hr (by simp [hr]) (by simp [hr]) h
  have hlim := x.pos_lim
  constructor
  · rintro ⟨⟨c1, c2, c3, c4, c5⟩, ⟨p1, p2⟩, ⟨f1, f2, f3, f4⟩, d⟩
    simp only [Fifo.flushOutstanding_iff] at p2 f3
    refine ⟨Nat.zero_le _, c1, c2, c3, c4, c5.trans_eq (Nat.zero_add _).symm, hlim ▸ p1, p2, f1, f2, f3, f4 f1, fun h => ?_⟩
    obtain ⟨d1, d2, d3, -, d4⟩ := d h
    exact ⟨hdrain.mp d1, d2, d3, d4 ∘ Fifo.flushOutstanding_iff.mpr⟩
  · rintro ⟨-, c1, c2, c3, c4, c5, p1, p2, f1, f2, f3, f4, d⟩
    have c5 : x.pos x.wptr ≤ x.capacity := c5.trans_eq (Nat.zero_add _)
    refine ⟨⟨c1, c2, c3, c4, c5⟩, ⟨hlim ▸ p1, p2 ∘ Fifo.flushOutstanding_iff.mp⟩, ⟨f1, f2, fun h => ?_, fun _ => f4⟩,
      fun h => ?_⟩
    · obtain ⟨f5, f6⟩ := f3 h
      exact ⟨Fifo.flushOutstanding_iff.mpr f5, f6⟩
    obtain ⟨d1, d2, d3, d4⟩ := d h
    refine ⟨hdrain.mpr d1, d2, d3, ?_, d4 ∘ Fifo.flushOutstanding_iff.mp⟩
    rw [hdist d2.le]
    exact (Nat.sub_le ..).trans (d3.trans c5)

end

/-! ### The moves on a standing -/

/-- `ADVANCE` (R255). -/
def Standing.advance (v : Standing) : Standing :=
  if v.target ≤ v.wqb then { v with rhead := v.target, drain := false } else { v with rhead := v.wqb }

section
variable {v : Standing} {C : Nat} (h : v.Ordered C)
include h

theorem Standing.Ordered.push (hlt : v.wptr < v.rqb + C) : Standing.Ordered { v with wptr := v.wptr + 1 } C := by
  rw [Standing.ordered_iff] at *
  grind [Standing.lim]

theorem Standing.Ordered.request (hf : v.flReq = v.fa) :
    Standing.Ordered { v with mark := v.wptr, flReq := !v.flReq } C := by
  rw [Standing.ordered_iff] at *
  grind [Standing.lim]

theorem Standing.Ordered.remember (hf : v.flReq ≠ v.fa) :
    Standing.Ordered { v with next := v.wptr, flPend := true } C := by
  rw [Standing.ordered_iff] at *
  grind [Standing.lim]

theorem Standing.Ordered.pop (hd : v.drain = false) (hlt : v.rhead < v.wqb) :
    Standing.Ordered { v with rhead := v.rhead + 1 } C := by
  rw [Standing.ordered_iff] at *
  grind [Standing.lim]

theorem Standing.Ordered.wPub (hlt : v.wpub < v.lim) : Standing.Ordered { v with wpub := v.wpub + 1 } C := by
  rw [Standing.ordered_iff] at *
  grind [Standing.lim]

theorem Standing.Ordered.rPub (hlt : v.rpub < v.rhead) : Standing.Ordered { v with rpub := v.rpub + 1 } C := by
  rw [Standing.ordered_iff] at *
  grind [Standing.lim]

theorem Standing.Ordered.syncW2R {w : Nat} (hlt : v.wqb < w) (hle : w ≤ v.wpub) :
    Standing.Ordered (if v.drain then Standing.advance { v with wqb := w } else { v with wqb := w }) C := by
  rw [Standing.ordered_iff] at *
  split
  · unfold Standing.advance
    split <;> grind [Standing.lim]
  · grind [Standing.lim]

theorem Standing.Ordered.capture (hne : v.fr ≠ v.flReq) :
    Standing.Ordered (if v.mark = v.rhead then
        { v with fr := v.flReq, target := v.mark, flAck := v.flReq, drain := false }
      else Standing.advance { v with fr := v.flReq, target := v.mark, flAck := v.flReq, drain := true }) C := by
  rw [Standing.ordered_iff] at *
  split
  · grind [Standing.lim]
  · unfold Standing.advance
    split <;> grind [Standing.lim]

theorem Standing.Ordered.ackSync (hne : v.fa ≠ v.flAck) :
    Standing.Ordered (if v.flAck = v.flReq ∧ v.flPend = true then
        { v with fa := v.flAck, mark := v.next, flReq := !v.flReq, flPend := false }
      else { v with fa := v.flAck }) C := by
  rw [Standing.ordered_iff] at *
  split
  · grind [Standing.lim]
  · grind [Standing.lim]

/-- The producer's view moves on, no further than the published pointer. -/
theorem Standing.Ordered.view {r : Nat} (hlow : v.rqb ≤ r) (hhigh : r ≤ v.rpub) :
    Standing.Ordered { v with rqb := r } C := by
  rw [Standing.ordered_iff] at *
  grind [Standing.lim]

/-- The view moves on by `d`, no further than the published pointer: the origin of the positions moves with it. A mark
that it has passed may stand anywhere. -/
theorem Standing.Ordered.syncR2W {d m n t : Nat} (h0 : v.rqb = 0) (hd : d ≤ v.rpub) (hm : d ≤ v.mark → m = v.mark - d)
    (hn : d ≤ v.next → n = v.next - d) (ht : d ≤ v.target → t = v.target - d) :
    Standing.Ordered { v with
      wptr := v.wptr - d, wpub := v.wpub - d, wqb := v.wqb - d, rhead := v.rhead - d, rpub := v.rpub - d,
      mark := m, next := n, target := t } C := by
  have hmark (ho : v.flReq ≠ v.fa) : d ≤ v.mark := by
    have hlim := h.wpub_le_lim
    rw [Standing.lim, if_neg ho] at hlim
    exact hd.trans (h.rpub_le.trans (h.rhead_le.trans (h.wqb_le.trans hlim)))
  rw [Standing.ordered_iff] at *
  obtain ⟨hchain, hhold, hphase, hdrain⟩ := h
  refine ⟨by grind, by grind [Standing.lim], by grind, by grind⟩

end

/-! ### The moves on a FIFO -/

section
variable {x : Fifo} {p : Ptr}

theorem Fifo.Inv.range (h : x.Inv) : x.InRange := h.1

theorem Fifo.Inv.ordered (h : x.Inv) : x.standing.Ordered x.capacity := (Fifo.inv_iff.mp h).2

theorem Fifo.Inv.wptr_le (h : x.Inv) : x.pos x.wptr ≤ x.capacity := h.ordered.wptr_le.trans_eq (Nat.zero_add _)

theorem Fifo.Inv.wptr_lt (h : x.Inv) (hf : x.wfull = false) : x.pos x.wptr < x.capacity :=
  Nat.lt_of_le_of_ne h.wptr_le (beq_eq_false_iff_ne.mp hf)

theorem Fifo.Inv.push (h : x.Inv) (hf : x.wfull = false) (b : Byte) : (x.push b).Inv := by
  have ho := h.ordered
  obtain ⟨⟨hwptr, hrange⟩, hwf, hslots⟩ := h.range
  have hlt := h.wptr_lt hf
  have hs : (x.push b).standing = { x.standing with wptr := x.standing.wptr + 1 } :=
    congrArg (fun n => { x.standing with wptr := n }) (Fifo.pos_ptrSucc h.range hwptr hlt)
  exact Fifo.inv_iff.mpr ⟨⟨⟨inRange_ptrSucc .., hrange⟩, Memory.write_wf hwf _ _,
    Memory.write_bounded hslots (slotOf_lt _ _) b⟩, hs ▸ ho.push (hlt.trans_eq (Nat.zero_add _).symm)⟩

theorem Fifo.Inv.flushReq (h : x.Inv) : x.flushReq.Inv := by
  have ho := h.ordered
  obtain ⟨⟨hwptr, hwpub, hrq, hmark, hnext, hread⟩, hmem⟩ := h.range
  rw [x.flushReq_eq]
  split
  · exact Fifo.inv_iff.mpr ⟨⟨⟨hwptr, hwpub, hrq, hwptr, hnext, hread⟩, hmem⟩, ho.request ‹_›⟩
  · exact Fifo.inv_iff.mpr ⟨⟨⟨hwptr, hwpub, hrq, hmark, hwptr, hread⟩, hmem⟩, ho.remember ‹_›⟩

/-- A byte is visible where the FIFO does not drain and its view is ahead. -/
theorem Fifo.Inv.rcount_eq (h : x.Inv) :
    x.rcount = if x.drain then 0 else x.pos x.wqb - x.pos x.rhead := by
  have hr := h.range
  rw [Fifo.rcount, Fifo.dist_eq_pos_sub hr hr.wqb (by simp [hr]) h.ordered.rhead_le]

theorem Fifo.Inv.visible (h : x.Inv) (hv : x.rempty = false) : x.drain = false ∧ x.pos x.rhead < x.pos x.wqb := by
  have hne := Fifo.rempty_eq_false_iff.mp hv
  rw [h.rcount_eq] at hne
  split at hne
  · exact absurd rfl hne
  · exact ⟨Bool.eq_false_iff.mpr ‹_›, by omega⟩

theorem Fifo.Inv.pop (h : x.Inv) (hv : x.rempty = false) : x.pop.Inv := by
  have ho := h.ordered
  obtain ⟨⟨hwptr, hwpub, hrq, hmark, hnext, hrhead, hrest⟩, hmem⟩ := h.range
  obtain ⟨hd, hlt⟩ := h.visible hv
  have hs : x.pop.standing = { x.standing with rhead := x.standing.rhead + 1 } :=
    congrArg (fun n => { x.standing with rhead := n }) (Fifo.pos_ptrSucc h.range hrhead
      (hlt.trans_le (ho.wqb_le.trans (ho.wpub_le.trans h.wptr_le))))
  exact Fifo.inv_iff.mpr ⟨⟨⟨hwptr, hwpub, hrq, hmark, hnext, inRange_ptrSucc .., hrest⟩, hmem⟩, hs ▸ ho.pop hd hlt⟩

/-- A publish step is enabled exactly where the pointer lags. -/
theorem Fifo.Inv.wpub_lt_lim (h : x.Inv) (hne : x.wpub ≠ x.lim) : x.pos x.wpub < x.standing.lim := by
  have hr := h.range
  refine Nat.lt_of_le_of_ne h.ordered.wpub_le_lim fun e => hne (Fifo.eq_of_pos_eq hr (by simp [hr]) ?_ ?_)
  · rw [Fifo.lim]
    split <;> simp [hr]
  · exact e.trans x.pos_lim.symm

theorem Standing.Ordered.lim_le {v : Standing} {C : Nat} (h : v.Ordered C) : v.lim ≤ v.wptr := by
  rw [Standing.lim]
  split
  · exact le_rfl
  · exact h.mark_le ‹_›

theorem Fifo.Inv.wPub (h : x.Inv) (hne : x.wpub ≠ x.lim) : x.wPub.Inv := by
  have ho := h.ordered
  have hlt := h.wpub_lt_lim hne
  obtain ⟨⟨hwptr, hwpub, hrest⟩, hmem⟩ := h.range
  have hs : x.wPub.standing = { x.standing with wpub := x.standing.wpub + 1 } :=
    congrArg (fun n => { x.standing with wpub := n }) (Fifo.pos_ptrSucc h.range hwpub
      (hlt.trans_le (ho.lim_le.trans h.wptr_le)))
  exact Fifo.inv_iff.mpr ⟨⟨⟨hwptr, inRange_ptrSucc .., hrest⟩, hmem⟩, hs ▸ ho.wPub hlt⟩

theorem Fifo.Inv.rpub_lt_rhead (h : x.Inv) (hne : x.rpub ≠ x.rhead) : x.pos x.rpub < x.pos x.rhead := by
  have hr := h.range
  exact Nat.lt_of_le_of_ne h.ordered.rpub_le fun e => hne (Fifo.eq_of_pos_eq hr (by simp [hr]) (by simp [hr]) e)

theorem Fifo.Inv.rPub (h : x.Inv) (hne : x.rpub ≠ x.rhead) : x.rPub.Inv := by
  have ho := h.ordered
  have hlt := h.rpub_lt_rhead hne
  obtain ⟨⟨hwptr, hwpub, hrq, hmark, hnext, hrhead, hrpub, hrest⟩, hmem⟩ := h.range
  have hs : x.rPub.standing = { x.standing with rpub := x.standing.rpub + 1 } :=
    congrArg (fun n => { x.standing with rpub := n }) (Fifo.pos_ptrSucc h.range hrpub
      (hlt.trans_le (ho.rhead_le.trans (ho.wqb_le.trans (ho.wpub_le.trans h.wptr_le)))))
  exact Fifo.inv_iff.mpr ⟨⟨⟨hwptr, hwpub, hrq, hmark, hnext, hrhead, inRange_ptrSucc .., hrest⟩, hmem⟩,
    hs ▸ ho.rPub hlt⟩

/-- A draw as a pointer: in range, beyond the view, no further than the published pointer. -/
theorem drawn_spec {aw : Fin 16} {v : Nat} {view pub : Ptr} (hv : drawAdmitted aw v view pub = true) :
    inRange aw (BitVec.ofNat 16 v) = true ∧ 1 ≤ dist aw (BitVec.ofNat 16 v) view ∧
      dist aw (BitVec.ofNat 16 v) view ≤ dist aw pub view := by
  obtain ⟨hlt, hlow, hhigh⟩ := drawAdmitted_spec hv
  refine ⟨?_, hlow, hhigh⟩
  rw [inRange_iff, BitVec.toNat_ofNat, Nat.mod_eq_of_lt (hlt.trans_le (ptrModulus_le aw))]
  exact hlt

theorem Fifo.Inv.syncR2W (h : x.Inv) {v : Nat} (hv : drawAdmitted x.aw v x.rqb x.rpub = true) :
    (x.syncR2W v).Inv := by
  have ho := h.ordered
  have hr := h.range
  obtain ⟨hvr, -, hd⟩ := drawn_spec hv
  obtain ⟨⟨hwptr, hwpub, hrq, hmark, hnext, hrhead, hrpub, hwq, htarget⟩, hmem⟩ := h.range
  have hpos (p : Ptr) (hp : inRange x.aw p = true) (hle : x.pos (BitVec.ofNat 16 v) ≤ x.pos p) :
      (x.syncR2W v).pos p = x.pos p - x.pos (BitVec.ofNat 16 v) := by
    rw [Fifo.pos, Fifo.syncR2W_rqb]
    exact Fifo.dist_eq_pos_sub hr hp hvr hle
  have hd1 := hd.trans ho.rpub_le
  have hd2 := hd1.trans ho.rhead_le
  have hd3 := hd2.trans ho.wqb_le
  have hs : (x.syncR2W v).standing = { x.standing with
      wptr := x.standing.wptr - x.pos (BitVec.ofNat 16 v), wpub := x.standing.wpub - x.pos (BitVec.ofNat 16 v),
      wqb := x.standing.wqb - x.pos (BitVec.ofNat 16 v), rhead := x.standing.rhead - x.pos (BitVec.ofNat 16 v),
      rpub := x.standing.rpub - x.pos (BitVec.ofNat 16 v), mark := (x.syncR2W v).pos x.flMark,
      next := (x.syncR2W v).pos x.flNext, target := (x.syncR2W v).pos x.target } := by
    have e1 := hpos _ hwptr (hd3.trans ho.wpub_le)
    have e2 := hpos _ hwpub hd3
    have e3 := hpos _ hr.wqb hd2
    have e4 := hpos _ hrhead hd1
    have e5 := hpos _ hrpub hd
    simp only [Fifo.standing, ← e1, ← e2, ← e3, ← e4, ← e5]
    rfl
  exact Fifo.inv_iff.mpr ⟨⟨⟨hwptr, hwpub, inRange_gray hvr, hmark, hnext, hrhead, hrpub, hwq, htarget⟩, hmem⟩,
    hs ▸ ho.syncR2W rfl hd (hpos _ hmark) (hpos _ hnext) (hpos _ htarget)⟩

/-- A pointer beyond `a`, but no further than `b`, lies between them. -/
theorem Fifo.pos_between {a b v : Ptr} (h : x.InRange) (ha : inRange x.aw a = true) (hb : inRange x.aw b = true)
    (hv : inRange x.aw v = true) (hab : x.pos a ≤ x.pos b) (hlow : 1 ≤ dist x.aw v a)
    (hhigh : dist x.aw v a ≤ dist x.aw b a) : x.pos a < x.pos v ∧ x.pos v ≤ x.pos b := by
  rw [Fifo.dist_eq_pos_sub h hb ha hab] at hhigh
  have hM : x.pos b < ptrModulus x.aw := dist_lt ..
  have e : x.pos v = (x.pos a + dist x.aw v a) % ptrModulus x.aw := by
    rw [Fifo.pos, Fifo.pos, ← dist_ptrAdd ha h.rqb, ptrAdd_dist hv ha]
  rw [Nat.mod_eq_of_lt (by omega)] at e
  omega

/-- `ADVANCE` compares positions, where neither the target nor the view lies behind the read pointer. -/
theorem Fifo.advance_standing (h : x.InRange) (ht : x.pos x.rhead ≤ x.pos x.target)
    (hw : x.pos x.rhead ≤ x.pos x.wqb) : x.advance.standing = x.standing.advance := by
  have hiff : dist x.aw x.target x.rhead ≤ dist x.aw x.wqb x.rhead ↔ x.standing.target ≤ x.standing.wqb := by
    rw [Fifo.dist_eq_pos_sub h (by simp [h]) (by simp [h]) ht, Fifo.dist_eq_pos_sub h h.wqb (by simp [h]) hw]
    exact Nat.sub_le_sub_iff_right hw
  rw [x.advance_eq, Standing.advance, if_congr hiff rfl rfl]
  split <;> rfl

theorem Fifo.advance_capacity (x : Fifo) : x.advance.capacity = x.capacity := by
  rw [Fifo.capacity, Fifo.capacity, Fifo.advance_aw]

theorem Fifo.InRange.advance (h : x.InRange) : x.advance.InRange := by
  have hwqb := h.wqb
  obtain ⟨⟨hwptr, hwpub, hrq, hmark, hnext, hrhead, hrest⟩, hmem⟩ := id h
  rw [x.advance_eq]
  split
  · exact ⟨⟨hwptr, hwpub, hrq, hmark, hnext, hrest.2.2, hrest⟩, hmem⟩
  · exact ⟨⟨hwptr, hwpub, hrq, hmark, hnext, hwqb, hrest⟩, hmem⟩

theorem Fifo.Inv.syncW2R (h : x.Inv) {v : Nat} (hv : drawAdmitted x.aw v x.wqb x.wpub = true) :
    (x.syncW2R v).Inv := by
  have ho := h.ordered
  have hr := h.range
  obtain ⟨hvr, hlow, hhigh⟩ := drawn_spec hv
  obtain ⟨⟨hwptr, hwpub, hrq, hmark, hnext, hrhead, hrpub, hwq, htarget⟩, hmem⟩ := h.range
  obtain ⟨hlt, hle⟩ := Fifo.pos_between hr hr.wqb hwpub hvr ho.wqb_le hlow hhigh
  have hr' : Fifo.InRange { x with wq := gray (BitVec.ofNat 16 v) } :=
    ⟨⟨hwptr, hwpub, hrq, hmark, hnext, hrhead, hrpub, inRange_gray hvr, htarget⟩, hmem⟩
  have hs : Fifo.standing { x with wq := gray (BitVec.ofNat 16 v) } =
      { x.standing with wqb := x.pos (BitVec.ofNat 16 v) } := by
    simp [Fifo.standing, Fifo.wqb, Fifo.pos, Fifo.rqb]
  have hord := ho.syncW2R hlt hle
  rcases x.syncW2R_cases v with ⟨hd, e⟩ | ⟨hd, e⟩ <;> rw [e]
  · rw [if_neg (show ¬ x.standing.drain = true from Bool.eq_false_iff.mp hd)] at hord
    exact Fifo.inv_iff.mpr ⟨hr', hs ▸ hord⟩
  · rw [if_pos (show x.standing.drain = true from hd)] at hord
    obtain ⟨-, hrt, -⟩ := ho.draining hd
    have hview : x.standing.rhead ≤ x.pos (BitVec.ofNat 16 v) := ho.rhead_le.trans hlt.le
    have hadv := Fifo.advance_standing hr' hrt.le (hview.trans_eq (congrArg Standing.wqb hs).symm)
    exact Fifo.inv_iff.mpr ⟨hr'.advance, by rwa [hadv, hs, Fifo.advance_capacity]⟩

theorem Fifo.Inv.capture (h : x.Inv) (hne : x.fr ≠ x.flReq) : x.capture.Inv := by
  have hr := h.range
  have ho := h.ordered
  have hord := ho.capture hne
  have hmark : x.pos x.rhead ≤ x.pos x.flMark := ho.rhead_le_mark fun e => hne (ho.fr_eq.trans e.symm)
  obtain ⟨⟨hwptr, hwpub, hrq, hflMark, hnext, hrhead, hrpub, hwq, htarget⟩, hmem⟩ := h.range
  have hiff : x.standing.mark = x.standing.rhead ↔ x.flMark = x.rhead := Fifo.pos_eq_iff hr hflMark hrhead
  rw [x.capture_eq]
  split
  · rw [if_pos (hiff.mpr ‹_›)] at hord
    exact Fifo.inv_iff.mpr ⟨⟨⟨hwptr, hwpub, hrq, hflMark, hnext, hrhead, hrpub, hwq, hflMark⟩, hmem⟩, hord⟩
  · rw [if_neg (mt hiff.mp ‹_›)] at hord
    have hr' : Fifo.InRange { x with fr := x.flReq, target := x.flMark, flAck := x.flReq, drain := true } :=
      ⟨⟨hwptr, hwpub, hrq, hflMark, hnext, hrhead, hrpub, hwq, hflMark⟩, hmem⟩
    have hadv := Fifo.advance_standing hr' hmark ho.rhead_le
    exact Fifo.inv_iff.mpr ⟨hr'.advance, by rwa [hadv, Fifo.advance_capacity]⟩

theorem Fifo.Inv.ackSync (h : x.Inv) (hne : x.fa ≠ x.flAck) : x.ackSync.Inv := by
  have ho := h.ordered.ackSync hne
  obtain ⟨⟨hwptr, hwpub, hrq, hmark, hnext, hread⟩, hmem⟩ := h.range
  rw [x.ackSync_eq]
  have hs : x.standing.flAck = x.standing.flReq ∧ x.standing.flPend = true ↔ x.flAck = x.flReq ∧ x.flPend = true := Iff.rfl
  split
  · rw [if_pos ‹_›] at ho
    exact Fifo.inv_iff.mpr ⟨⟨⟨hwptr, hwpub, hrq, hnext, hnext, hread⟩, hmem⟩, ho⟩
  · rw [if_neg ‹_›] at ho
    exact Fifo.inv_iff.mpr ⟨⟨⟨hwptr, hwpub, hrq, hmark, hnext, hread⟩, hmem⟩, ho⟩

/-- Every move of a FIFO keeps its invariant. -/
theorem Fifo.Inv.move {f : FifoId} {e : Event} {a b c : List Byte} {y : Fifo} (h : x.Inv)
    (hm : FifoMove f e x a b c y) : y.Inv := by
  cases hm with
  | stay => exact h
  | push hf => exact h.push hf _
  | overflow => exact h.flushReq
  | pop hv => exact h.pop hv
  | wPub _ hne => exact h.wPub hne
  | rPub _ hne => exact h.rPub hne
  | syncR2W _ _ hv => exact h.syncR2W hv
  | syncW2R _ _ hv => exact h.syncW2R hv
  | capture _ hne => exact h.capture hne
  | ackSync _ hne => exact h.ackSync hne

end

end Sys2Proof.Machine

/-! SUPPORT. The invariant of the machine (10_state.md R49), and what it says about pointers, views and storage. -/

namespace Sys2Proof.Machine

/-! ### The error-clear handshake (R45) -/

/-- The registers of the error-clear handshake. -/
def State.errClear (s : State) : Bool × Bool × Bool × Bool × Bool :=
  (s.ecReq, s.ecPend, s.ecReqQ, s.ecAck, s.ecAckQ)

section
variable {e : Event} {s t : State} {i : Instr}

theorem State.ErrClearPhase.congr (h : s.ErrClearPhase) (he : t.errClear = s.errClear) : t.ErrClearPhase := by
  simp only [State.errClear, Prod.mk.injEq] at he
  obtain ⟨h1, h2, h3, h4, h5⟩ := he
  rwa [State.ErrClearPhase, h1, h2, h3, h4, h5]

theorem State.ErrClearPhase.request (h : s.ErrClearPhase) : s.requestErrClear.ErrClearPhase := by
  obtain ⟨hq, hp, hw⟩ := h
  rcases s.requestErrClear_cases with ⟨hr, e⟩ | ⟨hr, e⟩ <;> rw [e]
  · refine ⟨hq, .inr ?_, fun hpend => absurd hr (hw hpend)⟩
    rcases hp with h | h
    · exact hr.symm.trans h
    · exact h
  · exact ⟨hq, hp, fun _ => hr⟩

theorem State.ErrClearPhase.ecReqSync (h : s.ErrClearPhase) : s.ecReqSync.ErrClearPhase :=
  ⟨rfl, .inl rfl, h.2.2⟩

theorem State.ErrClearPhase.ecAckSync (h : s.ErrClearPhase) (hne : s.ecAckQ ≠ s.ecAck) :
    s.ecAckSync.ErrClearPhase := by
  obtain ⟨hq, hp, hw⟩ := h
  have hreq : s.ecReq = s.ecAck := hp.resolve_right hne
  rcases s.ecAckSync_cases with ⟨hack, hpend, e⟩ | ⟨hn, e⟩ <;> rw [e]
  · exact ⟨hq, .inr rfl, fun h => absurd h Bool.false_ne_true⟩
  · exact ⟨hq, .inl hreq, fun hpend => absurd ⟨hreq.symm, hpend⟩ hn⟩

/-- Only `A_ERR_CLR` works on the handshake. -/
theorem exec_errClear (hi : isErrClr i = false) (h : exec i s = .next t) : t.errClear = s.errClear := by
  cases i with
  | aTxEnq b =>
    cases hf : s.txf.wfull with
    | false => cases (exec_aTxEnq_accepts hf b).symm.trans h; rfl
    | true => cases (exec_aTxEnq_overflows hf b).symm.trans h; rfl
  | aRxDeq d =>
    cases hr : s.rxf.rempty with
    | false => cases (exec_aRxDeq_takes hr d).symm.trans h; rfl
    | true => cases (exec_aRxDeq_absent hr d).symm.trans h; rfl
  | sRxEnq b =>
    cases hf : s.rxf.wfull with
    | false => cases (exec_sRxEnq_accepts hf b).symm.trans h; rfl
    | true => cases (exec_sRxEnq_overflows hf b).symm.trans h; rfl
  | sTxDeq d =>
    cases hr : s.txf.rempty with
    | false => cases (exec_sTxDeq_takes hr d).symm.trans h; rfl
    | true => cases (exec_sTxDeq_absent hr d).symm.trans h; rfl
  | sIsr d => cases (exec_sIsr d s).symm.trans h; rfl
  | aErrClr d => cases hi
  | _ => cases h; rfl

theorem State.ErrClearPhase.exec (hp : s.ErrClearPhase) (h : exec i s = .next t) : t.ErrClearPhase := by
  cases hi : isErrClr i with
  | false => exact hp.congr (exec_errClear hi h)
  | true =>
    cases i with
    | aErrClr d =>
      cases h
      exact State.ErrClearPhase.request (s := { s with errTx := false }) hp
    | _ => cases hi

theorem State.ErrClearPhase.internal {k : InternalStep} (hp : s.ErrClearPhase) (hk : s.internalEnabled k = true) :
    (s.internalEffect k).ErrClearPhase := by
  cases k with
  | errRxSync => exact hp
  | ecReqSync => exact hp.ecReqSync
  | ecAckSync => exact hp.ecAckSync (State.internalEnabled_ecAckSync_iff.mp hk)
  | _ => exact hp.congr (by simp [State.internalEffect, State.errClear])

theorem State.ErrClearPhase.transition (hp : s.ErrClearPhase) (h : Transition s e t) : t.ErrClearPhase := by
  cases h with
  | appCommand ht => exact hp.exec ht
  | serCommand _ ht => exact hp.exec ht
  | dispatched _ ht => exact hp.exec ht
  | internal hk => exact hp.internal hk
  | serIgnored | notDispatched | notEnabled | appIdle | serIdle | periphTxc | periphRxa => exact hp

/-! ### No lost wake-up (R262, R266, R354) -/

/-- Bytes become visible only by a view update or a capture; any other move sees them where they were seen before. -/
theorem FifoMove.visible {f : FifoId} {x y : Fifo} {a b c : List Byte} (h : FifoMove f e x a b c y)
    (hy : y.rcount ≠ 0) :
    x.rcount ≠ 0 ∨ (∃ v, e = .internal (.syncW2R f v) ∧ x.wqb ≠ x.wpub ∧ drawAdmitted x.aw v x.wqb x.wpub = true) ∨
      (e = .internal (.capture f) ∧ x.fr ≠ x.flReq) := by
  cases h with
  | pop hv => exact .inl (Fifo.rempty_eq_false_iff.mp hv)
  | syncW2R he hne hv => exact .inr (.inl ⟨_, he, hne, hv⟩)
  | capture he hne => exact .inr (.inr ⟨he, hne⟩)
  | overflow => exact .inl (Fifo.rcount_congr x.flushReq_aw x.flushReq_readEnd ▸ hy)
  | ackSync => exact .inl (Fifo.rcount_congr x.ackSync_aw x.ackSync_readEnd ▸ hy)
  | stay | push | wPub | rPub | syncR2W => exact .inl hy

theorem State.ArmedWhenVisible.transition (ha : s.ArmedWhenVisible) (hr : s.inReset = false)
    (he : isResetEvent e = false) (h : Transition s e t) : t.ArmedWhenVisible := by
  intro hv
  obtain ⟨u, hu, harmed⟩ := runEvent_armed hr he
  cases (hu.symm.trans (stepEvent_running hr e ▸ stepEvent_of_transition hr h))
  have arms (hx : armsTx e s = true) (hask : asksFor .tx e s = false) : t.armed = true := by simp [harmed, hx, hask]
  rcases (fifoMove_of_transition .tx hr h).visible hv with hx | ⟨v, rfl, hne, hd⟩ | ⟨rfl, hne⟩
  · have hempty : s.txf.rempty = false := Fifo.rempty_eq_false_iff.mpr hx
    simp [harmed, ha hx, hempty]
  · exact arms (armsTx_iff.mpr ⟨hr, .inl ⟨v, rfl, State.internalEnabled_syncW2R_iff.mpr ⟨hne, hd⟩⟩⟩)
      (asksFor_internal ..)
  · exact arms (armsTx_iff.mpr ⟨hr, .inr ⟨rfl, State.internalEnabled_capture_iff.mpr hne⟩⟩) (asksFor_internal ..)

/-! ### Every transition keeps the invariant -/

theorem State.resetTo_inv (s : State) (a b : Bool) : (s.resetTo a b).Inv :=
  ⟨Fifo.reset_inv s.txf.aw, Fifo.reset_inv s.rxf.aw, ⟨rfl, .inl rfl, fun h => absurd h Bool.false_ne_true⟩,
    fun h => absurd (Fifo.reset_rcount s.txf.aw) h, fun _ => rfl⟩

theorem State.Inv.transition (h : s.Inv) (hr : s.inReset = false) (he : isResetEvent e = false)
    (ht : Transition s e t) : t.Inv := by
  obtain ⟨htx, hrx, hec, harmed, -⟩ := h
  obtain ⟨-, -, -, hext⟩ := ht.frame
  exact ⟨htx.move (fifoMove_of_transition .tx hr ht), hrx.move (fifoMove_of_transition .rx hr ht), hec.transition ht,
    harmed.transition hr he ht, fun hr' => absurd (hr'.symm.trans ((State.inReset_congr hext).trans hr))
      Bool.false_ne_true.symm⟩

theorem State.Inv.stepEvent (h : s.Inv) (ht : stepEvent e s = .next t) : t.Inv := by
  cases he : isResetEvent e with
  | false =>
    rcases transition_of_stepEvent he ht with ⟨-, rfl⟩ | ⟨hr, ht⟩
    · exact h
    · exact h.transition hr he ht
  | true =>
    obtain ⟨a, b, rfl⟩ := isResetEvent_iff.mp he
    rcases s.setResetPins_cases a b with ⟨-, -, e⟩ | ⟨-, -, -, e⟩ | ⟨-, e⟩ <;> cases e.symm.trans ht
    · exact h
    · exact s.resetTo_inv a b

theorem State.Inv.strobesDown (h : s.Inv) : s.strobesDown.Inv := by
  obtain ⟨htx, hrx, hec, harmed, hheld⟩ := h
  exact ⟨htx, hrx, hec, harmed, fun hr => congrArg State.strobesDown (hheld hr)⟩

theorem State.Inv.withSchedule (h : s.Inv) (es : List Event) (n : Nat) :
    State.Inv { s with pending := es, drawn := n } := by
  obtain ⟨htx, hrx, hec, harmed, hheld⟩ := h
  exact ⟨htx, hrx, hec, harmed, fun hr => congrArg (fun u => { u with pending := es, drawn := n }) (hheld hr)⟩

theorem State.Inv.drawEvent (h : s.Inv) : s.drawEvent.Inv := by
  unfold State.drawEvent
  split
  · exact h.withSchedule _ _
  · exact h.withSchedule _ _

/-- Settles O39: an event is a move of each FIFO, and keeps the handshake, the enable bit and a held reset. -/
theorem stepKeepsInvariant : Obligations.StepKeepsInvariant := fun _ _ h ht => h.drawEvent.strobesDown.stepEvent ht

end

/-! ### Registers that a move leaves alone (R37, R38) -/

section
variable (x : Fifo) (v : Nat)

@[simp] theorem Fifo.flushReq_wptr : x.flushReq.wptr = x.wptr := by
  rcases x.flushReq_cases with ⟨-, e⟩ | ⟨-, e⟩ <;> rw [e]

@[simp] theorem Fifo.flushReq_wpub : x.flushReq.wpub = x.wpub := by
  rcases x.flushReq_cases with ⟨-, e⟩ | ⟨-, e⟩ <;> rw [e]

@[simp] theorem Fifo.flushReq_rq : x.flushReq.rq = x.rq := by
  rcases x.flushReq_cases with ⟨-, e⟩ | ⟨-, e⟩ <;> rw [e]

@[simp] theorem Fifo.flushReq_mem : x.flushReq.mem = x.mem := by
  rcases x.flushReq_cases with ⟨-, e⟩ | ⟨-, e⟩ <;> rw [e]

@[simp] theorem Fifo.flushReq_rpub : x.flushReq.rpub = x.rpub := congrArg ReadEnd.rpub x.flushReq_readEnd

@[simp] theorem Fifo.flushReq_rhead : x.flushReq.rhead = x.rhead := congrArg ReadEnd.rhead x.flushReq_readEnd

@[simp] theorem Fifo.flushReq_wq : x.flushReq.wq = x.wq := congrArg ReadEnd.wq x.flushReq_readEnd

@[simp] theorem Fifo.ackSync_wptr : x.ackSync.wptr = x.wptr := by
  rcases x.ackSync_cases with ⟨-, -, e⟩ | ⟨-, e⟩ <;> rw [e]

@[simp] theorem Fifo.ackSync_wpub : x.ackSync.wpub = x.wpub := by
  rcases x.ackSync_cases with ⟨-, -, e⟩ | ⟨-, e⟩ <;> rw [e]

@[simp] theorem Fifo.ackSync_rq : x.ackSync.rq = x.rq := by
  rcases x.ackSync_cases with ⟨-, -, e⟩ | ⟨-, e⟩ <;> rw [e]

@[simp] theorem Fifo.ackSync_mem : x.ackSync.mem = x.mem := by
  rcases x.ackSync_cases with ⟨-, -, e⟩ | ⟨-, e⟩ <;> rw [e]

@[simp] theorem Fifo.ackSync_rpub : x.ackSync.rpub = x.rpub := congrArg ReadEnd.rpub x.ackSync_readEnd

@[simp] theorem Fifo.ackSync_rhead : x.ackSync.rhead = x.rhead := congrArg ReadEnd.rhead x.ackSync_readEnd

@[simp] theorem Fifo.ackSync_wq : x.ackSync.wq = x.wq := congrArg ReadEnd.wq x.ackSync_readEnd

@[simp] theorem Fifo.advance_rpub : x.advance.rpub = x.rpub := by
  rcases x.advance_cases with ⟨-, e⟩ | ⟨-, e⟩ <;> rw [e]

@[simp] theorem Fifo.syncW2R_rpub : (x.syncW2R v).rpub = x.rpub := by
  rcases x.syncW2R_cases v with ⟨-, e⟩ | ⟨-, e⟩ <;> simp [e]

@[simp] theorem Fifo.capture_rpub : x.capture.rpub = x.rpub := by
  rcases x.capture_cases with ⟨-, e⟩ | ⟨-, e⟩ <;> simp [e]

@[simp] theorem Fifo.capture_wq : x.capture.wq = x.wq := by
  rcases x.capture_cases with ⟨-, e⟩ | ⟨-, e⟩ <;> simp [e]

@[simp] theorem Fifo.syncW2R_wptr : (x.syncW2R v).wptr = x.wptr := congrArg WriteEnd.wptr (x.syncW2R_writeEnd v)

@[simp] theorem Fifo.syncW2R_wpub : (x.syncW2R v).wpub = x.wpub := congrArg WriteEnd.wpub (x.syncW2R_writeEnd v)

@[simp] theorem Fifo.syncW2R_rq : (x.syncW2R v).rq = x.rq := congrArg WriteEnd.rq (x.syncW2R_writeEnd v)

@[simp] theorem Fifo.syncW2R_mem : (x.syncW2R v).mem = x.mem := congrArg WriteEnd.mem (x.syncW2R_writeEnd v)

@[simp] theorem Fifo.capture_wptr : x.capture.wptr = x.wptr := congrArg WriteEnd.wptr x.capture_writeEnd

@[simp] theorem Fifo.capture_wpub : x.capture.wpub = x.wpub := congrArg WriteEnd.wpub x.capture_writeEnd

@[simp] theorem Fifo.capture_rq : x.capture.rq = x.rq := congrArg WriteEnd.rq x.capture_writeEnd

@[simp] theorem Fifo.capture_mem : x.capture.mem = x.mem := congrArg WriteEnd.mem x.capture_writeEnd

end

/-! ### Published pointers, views and storage under a move -/

section
variable {f : FifoId} {e : Event} {x y : Fifo} {a b c : List Byte}

theorem FifoMove.aw_eq (h : FifoMove f e x a b c y) : y.aw = x.aw := by
  cases h <;> simp

/-- The published write pointer moves in `W_PUB` only, by one. -/
theorem FifoMove.wpub_eq (h : FifoMove f e x a b c y) :
    y.wpub = x.wpub ∨ (y.wpub = ptrSucc x.aw x.wpub ∧ e = .internal (.wPub f)) := by
  cases h with
  | wPub he _ => exact .inr ⟨rfl, he⟩
  | _ => exact .inl (by simp)

/-- The published read pointer moves in `R_PUB` only, by one. -/
theorem FifoMove.rpub_eq (h : FifoMove f e x a b c y) :
    y.rpub = x.rpub ∨ (y.rpub = ptrSucc x.aw x.rpub ∧ e = .internal (.rPub f)) := by
  cases h with
  | rPub he _ => exact .inr ⟨rfl, he⟩
  | _ => exact .inl (by simp)

/-- The producer's view moves in `SYNC_R2W` only, to an admitted draw. -/
theorem FifoMove.rqb_eq (h : FifoMove f e x a b c y) :
    y.rqb = x.rqb ∨ ∃ v, e = .internal (.syncR2W f v) ∧ drawAdmitted x.aw v x.rqb x.rpub = true ∧
      y.rqb = BitVec.ofNat 16 v := by
  cases h with
  | syncR2W he _ hv => exact .inr ⟨_, he, hv, x.syncR2W_rqb _⟩
  | _ => exact .inl (by simp [Fifo.rqb])

/-- The consumer's view moves in `SYNC_W2R` only, to an admitted draw. -/
theorem FifoMove.wqb_eq (h : FifoMove f e x a b c y) :
    y.wqb = x.wqb ∨ ∃ v, e = .internal (.syncW2R f v) ∧ drawAdmitted x.aw v x.wqb x.wpub = true ∧
      y.wqb = BitVec.ofNat 16 v := by
  cases h with
  | syncW2R he _ hv => exact .inr ⟨_, he, hv, x.syncW2R_wqb _⟩
  | _ => exact .inl (by simp [Fifo.wqb])

/-- What a move accepts: `wptr` and storage change where a byte is accepted, at the slot of `wptr`. -/
theorem FifoMove.accepted (h : FifoMove f e x a b c y) :
    (a = [] ∧ y.wptr = x.wptr ∧ y.mem = x.mem) ∨
    (∃ d, a = [d] ∧ x.wfull = false ∧ y.wptr = ptrSucc x.aw x.wptr ∧ y.mem = x.mem.write (slotOf x.aw x.wptr) d) := by
  cases h with
  | push hf => exact .inr ⟨_, rfl, hf, rfl, rfl⟩
  | _ => exact .inl ⟨rfl, by simp, by simp⟩

end

/-- A view goes on by the increments to an admitted draw. -/
theorem eq_ptrAdd_of_drawAdmitted {aw : Fin 16} {v : Nat} {view pub : Ptr} (hview : inRange aw view = true)
    (h : drawAdmitted aw v view pub = true) :
    ∃ k, 1 ≤ k ∧ k ≤ dist aw pub view ∧ BitVec.ofNat 16 v = ptrAdd aw view k := by
  obtain ⟨hv, hlow, hhigh⟩ := drawn_spec h
  exact ⟨_, hlow, hhigh, (ptrAdd_dist hv hview).symm⟩

/-- Settles O26: `W_PUB` and `R_PUB` alone write the published pointers, and a code changes in one bit. -/
theorem publishedPointersCountByOne : Obligations.PublishedPointersCountByOne := by
  intro e s t f h he ht
  have hm := fifoMove_of_stepEvent f he ht
  have hr := (h.fifo f).range
  refine ⟨hm.wpub_eq.imp_right fun ⟨hp, hk⟩ => ⟨hp, hk, ?_⟩, hm.rpub_eq.imp_right fun ⟨hp, hk⟩ => ⟨hp, hk, ?_⟩⟩
  · rw [Fifo.wgray, Fifo.wgray, hp]
    exact gray_ptrSucc_xor_gray (by simp [hr])
  · rw [Fifo.rgray, Fifo.rgray, hp]
    exact gray_ptrSucc_xor_gray (by simp [hr])

/-- Settles O44: a view stays or takes an admitted draw. -/
theorem viewsMoveForward : Obligations.ViewsMoveForward := by
  intro e s t f h he ht x
  have hm := fifoMove_of_stepEvent f he ht
  have hr := (h.fifo f).range
  constructor
  · rcases hm.rqb_eq with e | ⟨v, -, hv, e⟩
    · exact ⟨0, Nat.zero_le _, e.trans (ptrAdd_zero hr.rqb).symm⟩
    · obtain ⟨k, -, hk, ev⟩ := eq_ptrAdd_of_drawAdmitted hr.rqb hv
      exact ⟨k, hk, e.trans ev⟩
  · rcases hm.wqb_eq with e | ⟨v, -, hv, e⟩
    · exact ⟨0, Nat.zero_le _, e.trans (ptrAdd_zero hr.wqb).symm⟩
    · obtain ⟨k, -, hk, ev⟩ := eq_ptrAdd_of_drawAdmitted hr.wqb hv
      exact ⟨k, hk, e.trans ev⟩

/-- Settles O42: the accepted byte is read back from its slot, and every other slot is left. -/
theorem storageWrittenOnlyByEnqueue : Obligations.StorageWrittenOnlyByEnqueue := by
  intro e s t f k hwf he ht
  rcases (fifoMove_of_stepEvent f he ht).accepted with ⟨ha, -, hm⟩ | ⟨d, ha, -, -, hm⟩ <;> rw [ha, hm]
  by_cases hk : k = slotOf (s.fifo f).aw (s.fifo f).wptr
  · subst hk
    exact (Memory.read_write_same hwf _ d).trans (if_pos rfl).symm
  · exact (Memory.read_write_of_ne d hk).trans (if_neg hk).symm

/-- Settles O41: the positions from `rpub` to `wptr` lie within one capacity. -/
theorem enqueueNeverOverwrites : Obligations.EnqueueNeverOverwrites := by
  intro x h hf k hk
  have hr := h.range
  have ho := h.ordered
  have hlt := h.wptr_lt hf
  have hle : x.pos x.rpub ≤ x.pos x.wptr := ho.rpub_le.trans (ho.rhead_le.trans (ho.wqb_le.trans ho.wpub_le))
  have hd := Fifo.dist_eq_pos_sub hr (by simp [hr]) (by simp [hr]) hle
  have hslots := slotOf_ptrAdd_ne x.rpub hk (by rw [hd]; change _ < _ + x.capacity; omega)
  rwa [ptrAdd_dist (by simp [hr]) (by simp [hr])] at hslots

theorem Fifo.contents_length (x : Fifo) : x.contents.length = dist x.aw x.wptr x.rhead := by simp [Fifo.contents]

theorem Fifo.Inv.contents_length_eq {x : Fifo} (h : x.Inv) : x.contents.length = x.pos x.wptr - x.pos x.rhead := by
  have hr := h.range
  have ho := h.ordered
  rw [x.contents_length, Fifo.dist_eq_pos_sub hr (by simp [hr]) (by simp [hr])
    (ho.rhead_le.trans (ho.wqb_le.trans ho.wpub_le))]

/-- Settles O43: each view lags behind the pointer that it views. -/
theorem lagPrinciple : Obligations.LagPrinciple := by
  intro x h
  have hview : x.pos x.wqb ≤ x.pos x.wptr := h.ordered.wqb_le.trans h.ordered.wpub_le
  refine ⟨x.contents_length, ?_, ?_⟩ <;> rw [h.contents_length_eq]
  · exact Nat.sub_le ..
  · rw [h.rcount_eq]
    split <;> omega

end Sys2Proof.Machine

/-! SUPPORT. The invariant in positions counted from reset (10_state.md R49): every move goes on with the history. -/

namespace Sys2Proof.Machine

/-! ### Pointers of positions (R9, R15) -/

section
variable {aw : Fin 16} {m n : Nat} {p : Ptr}

theorem ptrAdd_pointerAt (aw : Fin 16) (n k : Nat) : ptrAdd aw (pointerAt aw n) k = pointerAt aw (n + k) :=
  ptrAdd_ptrAdd aw 0 n k

theorem slotOf_pointerAt (aw : Fin 16) (n : Nat) : slotOf aw (pointerAt aw n) = n % slotCount aw := by
  rw [pointerAt, slotOf_ptrAdd_eq_mod]
  simp

/-- Positions less than a modulus apart are as far apart as their pointers. -/
theorem dist_pointerAt (hle : m ≤ n) (hlt : n < m + ptrModulus aw) :
    dist aw (pointerAt aw n) (pointerAt aw m) = n - m := by
  obtain ⟨k, rfl⟩ := Nat.exists_eq_add_of_le hle
  rw [← ptrAdd_pointerAt, dist_ptrAdd_of_lt _ (by omega), Nat.add_sub_cancel_left]

/-- A pointer goes on from a position by its distance. -/
theorem eq_pointerAt_add_dist (hp : inRange aw p = true) (n : Nat) :
    p = pointerAt aw (n + dist aw p (pointerAt aw n)) := by
  rw [← ptrAdd_pointerAt]
  exact (ptrAdd_dist hp (inRange_ptrAdd ..)).symm

theorem dist_ptrSucc_self (aw : Fin 16) (p : Ptr) : dist aw (ptrSucc aw p) p = 1 := by
  have hM : ptrModulus aw = 2 * slotCount aw := ptrModulus_eq aw
  have hC := slotCount_pos aw
  rw [ptrSucc_eq_ptrAdd, dist_ptrAdd_of_lt p (by omega)]

end

/-! ### A history as a standing -/

/-- Where a FIFO stands, counted from reset. -/
def History.standing (h : History) (x : Fifo) : Standing :=
  { rqb := h.rqb, wptr := h.accepted.length, wpub := h.wpub, wqb := h.wqb, rhead := h.rhead, rpub := h.rpub,
    mark := h.mark, next := h.next, target := h.target,
    flReq := x.flReq, fa := x.fa, fr := x.fr, flAck := x.flAck, flPend := x.flPend, drain := x.drain }

section
variable {x y : Fifo} {h : History}

/-- The chain of R49 spans no more than a capacity. -/
theorem Standing.Ordered.span {v : Standing} {C : Nat} (hv : v.Ordered C) :
    v.rqb ≤ v.rhead ∧ v.rqb ≤ v.wqb ∧ v.rqb ≤ v.wpub ∧ v.rqb ≤ v.wptr ∧ v.rhead ≤ v.wptr ∧ v.wqb ≤ v.wptr := by
  have h0 := hv.rqb_le
  have h1 := hv.rpub_le
  have h2 := hv.rhead_le
  have h3 := hv.wqb_le
  have h4 := hv.wpub_le
  omega

/-- A mark that is outstanding lies at or beyond the published pointer. -/
theorem Standing.Ordered.wpub_le_mark {v : Standing} {C : Nat} (hv : v.Ordered C) (ho : v.flReq ≠ v.fa) :
    v.wpub ≤ v.mark := by
  have h := hv.wpub_le_lim
  rwa [Standing.lim, if_neg ho] at h

/-- Positions within a capacity of the view are as far apart as their pointers. -/
theorem Fifo.dist_pointerAt {m n : Nat} (hle : m ≤ n) (hlt : n ≤ m + x.capacity) :
    dist x.aw (pointerAt x.aw n) (pointerAt x.aw m) = n - m := by
  refine Machine.dist_pointerAt hle (Nat.lt_of_le_of_lt hlt ?_)
  have hM := x.ptrModulus_eq_capacity
  have hC : 0 < x.capacity := slotCount_pos x.aw
  omega

/-- A history that a FIFO of the invariant follows stands in the order of R49. -/
theorem Fifo.Follows.ordered (hf : x.Follows h) (hi : x.Inv) : (h.standing x).Ordered x.capacity := by
  obtain ⟨-, -, hrqb, -, -, -, hmark, -, htarget⟩ := hf.pointers
  obtain ⟨c0, c1, c2, c3, c4, c5⟩ := hf.chain
  obtain ⟨p1, p2⟩ := hf.publishHold
  obtain ⟨f3, f4⟩ := hf.flush
  have hord := hi.ordered
  have hfr : x.fr = x.flAck := hord.fr_eq
  have hlim : h.wpub ≤ (h.standing x).lim := by
    rw [Standing.lim]
    cases ho : x.flushOutstanding with
    | false =>
      rw [ho] at p1
      exact p1.trans_eq (if_pos (Fifo.flushOutstanding_eq_false_iff.mp ho)).symm
    | true =>
      rw [ho] at p1
      exact p1.trans_eq (if_neg (Fifo.flushOutstanding_iff.mp ho)).symm
  refine ⟨c0, c1, c2, c3, c4, c5, hlim, fun _ => p2, hfr, hord.phase, f3, f4 hfr, fun hd => ?_⟩
  obtain ⟨d1, d2, d3, d4⟩ := hf.drain hd
  refine ⟨d2, d1, d3, fun ho => ?_⟩
  have hwm : h.wpub ≤ h.mark := by
    rw [Standing.lim, if_neg ho] at hlim
    exact hlim
  obtain ⟨-, -, -, hle⟩ := hord.draining hd
  have hle : dist x.aw x.target x.rqb ≤ dist x.aw x.flMark x.rqb := hle ho
  rw [hrqb, htarget, hmark, Fifo.dist_pointerAt (by omega) (by omega), Fifo.dist_pointerAt (by omega) (by omega)] at hle
  change h.target ≤ h.mark
  omega

/-- R49 item 6 follows from the chain. -/
theorem Fifo.noOverwriteAt (hp : x.PointersAt h) (hc : x.ChainAt h) : x.NoOverwriteAt h := by
  intro hfull p hp1 hp2
  obtain ⟨hwptr, -, hrqb, -⟩ := hp
  obtain ⟨c0, c1, c2, c3, c4, c5⟩ := hc
  have hcount : x.wcount = h.accepted.length - h.rqb := by
    rw [Fifo.wcount, hwptr, hrqb, Fifo.dist_pointerAt (by omega) c5]
  have hne : x.wcount ≠ x.capacity := beq_eq_false_iff_ne.mp hfull
  rw [hwptr, slotOf_pointerAt]
  intro e
  have hd := (Nat.modEq_iff_dvd' hp2.le).mp (show p ≡ h.accepted.length [MOD slotCount x.aw] from e)
  have hle := Nat.le_of_dvd (by omega) hd
  change x.capacity ≤ _ at hle
  omega

/-- The items of R49 from a standing in order. -/
theorem Standing.Ordered.follows (hv : (h.standing x).Ordered x.capacity) (hp : x.PointersAt h)
    (hm : h.mark ≤ h.accepted.length) (hd : x.DataAt h) : x.Follows h := by
  have hchain : x.ChainAt h := ⟨hv.rqb_le, hv.rpub_le, hv.rhead_le, hv.wqb_le, hv.wpub_le, hv.wptr_le⟩
  refine ⟨hp, hchain, ⟨?_, hm⟩, ⟨hv.pend, fun _ => hv.rhead_le_mark⟩, fun hdr => ?_, hd, Fifo.noOverwriteAt hp hchain⟩
  · have hlim := hv.wpub_le_lim
    rw [Standing.lim] at hlim
    cases ho : x.flushOutstanding with
    | false => exact hlim.trans_eq (if_pos (Fifo.flushOutstanding_eq_false_iff.mp ho))
    | true => exact hlim.trans_eq (if_neg (Fifo.flushOutstanding_iff.mp ho))
  · obtain ⟨d1, d2, d3, -⟩ := hv.draining hdr
    obtain ⟨hr, -⟩ := hv.span
    have hcap := hv.wptr_le
    change h.accepted.length ≤ h.rqb + x.capacity at hcap
    change h.rqb ≤ h.rhead at hr
    change h.target ≤ h.accepted.length at d3
    exact ⟨d2, d1, d3, by omega⟩

/-! ### The registers of a move, as the history reads them -/

section
variable (x : Fifo) (v : Nat)

@[simp] theorem Fifo.syncW2R_flReq : (x.syncW2R v).flReq = x.flReq := congrArg WriteEnd.flReq (x.syncW2R_writeEnd v)

@[simp] theorem Fifo.syncW2R_flMark : (x.syncW2R v).flMark = x.flMark := congrArg WriteEnd.flMark (x.syncW2R_writeEnd v)

@[simp] theorem Fifo.syncW2R_flPend : (x.syncW2R v).flPend = x.flPend := congrArg WriteEnd.flPend (x.syncW2R_writeEnd v)

@[simp] theorem Fifo.syncW2R_flNext : (x.syncW2R v).flNext = x.flNext := congrArg WriteEnd.flNext (x.syncW2R_writeEnd v)

@[simp] theorem Fifo.syncW2R_fa : (x.syncW2R v).fa = x.fa := congrArg WriteEnd.fa (x.syncW2R_writeEnd v)

@[simp] theorem Fifo.capture_flReq : x.capture.flReq = x.flReq := congrArg WriteEnd.flReq x.capture_writeEnd

@[simp] theorem Fifo.capture_flMark : x.capture.flMark = x.flMark := congrArg WriteEnd.flMark x.capture_writeEnd

@[simp] theorem Fifo.capture_flPend : x.capture.flPend = x.flPend := congrArg WriteEnd.flPend x.capture_writeEnd

@[simp] theorem Fifo.capture_flNext : x.capture.flNext = x.flNext := congrArg WriteEnd.flNext x.capture_writeEnd

@[simp] theorem Fifo.capture_fa : x.capture.fa = x.fa := congrArg WriteEnd.fa x.capture_writeEnd

@[simp] theorem Fifo.flushReq_fr : x.flushReq.fr = x.fr := congrArg ReadEnd.fr x.flushReq_readEnd

@[simp] theorem Fifo.flushReq_target : x.flushReq.target = x.target := congrArg ReadEnd.target x.flushReq_readEnd

@[simp] theorem Fifo.ackSync_fr : x.ackSync.fr = x.fr := congrArg ReadEnd.fr x.ackSync_readEnd

@[simp] theorem Fifo.ackSync_target : x.ackSync.target = x.target := congrArg ReadEnd.target x.ackSync_readEnd

@[simp] theorem Fifo.advance_fr : x.advance.fr = x.fr := by
  rcases x.advance_cases with ⟨-, e⟩ | ⟨-, e⟩ <;> rw [e]

@[simp] theorem Fifo.advance_target : x.advance.target = x.target := by
  rcases x.advance_cases with ⟨-, e⟩ | ⟨-, e⟩ <;> rw [e]

@[simp] theorem Fifo.syncW2R_fr : (x.syncW2R v).fr = x.fr := by
  rcases x.syncW2R_cases v with ⟨-, e⟩ | ⟨-, e⟩ <;> simp [e]

@[simp] theorem Fifo.syncW2R_target : (x.syncW2R v).target = x.target := by
  rcases x.syncW2R_cases v with ⟨-, e⟩ | ⟨-, e⟩ <;> simp [e]

@[simp] theorem Fifo.capture_fr : x.capture.fr = x.flReq := by
  rcases x.capture_cases with ⟨-, e⟩ | ⟨-, e⟩ <;> simp [e]

@[simp] theorem Fifo.capture_target : x.capture.target = x.flMark := by
  rcases x.capture_cases with ⟨-, e⟩ | ⟨-, e⟩ <;> simp [e]

end

section
variable {f : FifoId} {e : Event} {a c d : List Byte}

theorem Fifo.Inv.flPend_eq_false (hi : x.Inv) (hq : x.flReq = x.fa) : x.flPend = false :=
  Bool.eq_false_iff.mpr fun hp => (hi.ordered.pend hp).1 hq

/-- The mark is written where the request toggles: the remembered one, or that of `wptr` (R256, R258). -/
theorem FifoMove.flMark_eq (hm : FifoMove f e x a c d y) (hi : x.Inv) :
    y.flMark = if y.flReq = x.flReq then x.flMark else if x.flPend then x.flNext else x.wptr := by
  cases hm with
  | overflow =>
    rw [x.flushReq_eq]
    split
    · simp [hi.flPend_eq_false ‹_›]
    · simp
  | ackSync =>
    rw [x.ackSync_eq]
    split
    · simp [*]
    · simp
  | _ => simp

/-- The remembered mark is written by `FLUSH_REQ` only (R256). -/
theorem FifoMove.flNext_eq (hm : FifoMove f e x a c d y) :
    y.flNext = if y.flPend && !(x.flPend && y.flNext == x.flNext) then x.wptr else x.flNext := by
  cases hm with
  | overflow =>
    rw [x.flushReq_eq]
    split
    · cases hp : x.flPend <;> simp
    · cases hp : x.flPend <;> simp +contextual
  | ackSync =>
    rw [x.ackSync_eq]
    split
    · simp
    · cases hp : x.flPend <;> simp
  | _ => cases hp : x.flPend <;> simp [hp]

/-- The target is written by a capture only (R257). -/
theorem FifoMove.target_eq (hm : FifoMove f e x a c d y) :
    y.target = if y.fr = x.fr then x.target else x.flMark := by
  cases hm with
  | capture _ hne => simp [Ne.symm hne]
  | _ => simp

/-! ### Items that follow from the registers alone -/

theorem FifoMove.capacity_eq (hm : FifoMove f e x a c d y) : y.capacity = x.capacity := by
  rw [Fifo.capacity, Fifo.capacity, hm.aw_eq]

/-- The positions go on as the pointers do. -/
theorem FifoMove.pointersAt (hm : FifoMove f e x a c d y) (hp : x.PointersAt h) (hi : x.Inv) (hy : y.Inv) :
    y.PointersAt (h.after x y a) := by
  obtain ⟨hwptr, hwpub, hrqb, hrhead, hrpub, hwqb, hmark, hnext, htarget⟩ := hp
  have haw := hm.aw_eq
  have hr := hy.range
  have goes {p q : Ptr} {n : Nat} (hq : inRange y.aw q = true) (e : p = pointerAt x.aw n) :
      q = pointerAt y.aw (n + dist x.aw q p) := by
    rw [haw] at hq ⊢
    exact e ▸ eq_pointerAt_add_dist hq n
  refine ⟨?_, goes (by simp [hr]) hwpub, goes hr.rqb hrqb, goes (by simp [hr]) hrhead, goes (by simp [hr]) hrpub,
    goes hr.wqb hwqb, ?_, ?_, ?_⟩ <;> rw [haw]
  · rcases hm.accepted with ⟨rfl, hw, -⟩ | ⟨b, rfl, -, hw, -⟩ <;> rw [hw, hwptr]
    · simp [History.after]
    · simp [History.after, ptrSucc_eq_ptrAdd, ptrAdd_pointerAt]
  · rw [hm.flMark_eq hi, History.after]
    split
    · exact hmark
    · split
      · exact hnext
      · exact hwptr
  · rw [hm.flNext_eq, History.after]
    split
    · exact hwptr
    · exact hnext
  · rw [hm.target_eq, History.after]
    split
    · exact htarget
    · exact hmark

/-- The mark never passes `wptr`. -/
theorem Fifo.Follows.mark_le_after (hf : x.Follows h) (y : Fifo) (a : List Byte) :
    (h.after x y a).mark ≤ (h.after x y a).accepted.length := by
  obtain ⟨-, hmark⟩ := hf.publishHold
  obtain ⟨hpend, -⟩ := hf.flush
  refine le_trans ?_ (List.length_append.symm ▸ Nat.le_add_right _ a.length)
  rw [History.after]
  split
  · exact hmark
  · split
    · exact (hpend ‹_›).2.2
    · exact le_rfl

/-- The byte of a position stays in its slot until the position is consumed. -/
theorem FifoMove.dataAt (hm : FifoMove f e x a c d y) (hf : x.Follows h) (hwf : x.mem.wf) :
    y.DataAt (h.after x y a) := by
  intro p hlow hhigh
  have hlow' : h.rhead ≤ p := (Nat.le_add_right _ _).trans hlow
  have hwptr := hf.pointers.1
  rw [hm.capacity_eq, History.after]
  rcases hm.accepted with ⟨rfl, -, hmem⟩ | ⟨b, rfl, hfull, -, hmem⟩ <;> rw [hmem]
  · rw [List.append_nil]
    exact hf.data p hlow' (by simpa [History.after] using hhigh)
  · rcases Nat.lt_or_ge p h.accepted.length with hp | hp
    · rw [List.getElem?_append_left hp, Memory.read_write_of_ne b (hf.noOverwrite hfull p (hf.chain.2.1.trans hlow') hp)]
      exact hf.data p hlow' hp
    · have hp : p = h.accepted.length := le_antisymm (by simpa [History.after, Nat.lt_succ_iff] using hhigh) hp
      rw [hp, List.getElem?_concat_length, hwptr, slotOf_pointerAt]
      exact congrArg some (Memory.read_write_same hwf _ b).symm

end

/-! ### The order of R49 after each move -/

/-- A position goes on by the distance of its pointers, over no more than a capacity. -/
theorem Fifo.add_dist_pointerAt {m n : Nat} (hle : m ≤ n) (hlt : n ≤ m + x.capacity) :
    m + dist x.aw (pointerAt x.aw n) (pointerAt x.aw m) = n := by
  rw [Fifo.dist_pointerAt hle hlt]
  omega

/-- `ADVANCE` (R255) on positions. -/
theorem History.standing_advance (hp : x.PointersAt h) (hw : h.rhead ≤ h.wqb) (hwC : h.wqb ≤ h.rhead + x.capacity)
    (ht : h.rhead ≤ h.target) (htC : h.target ≤ h.rhead + x.capacity) :
    (h.after x x.advance []).standing x.advance = (h.standing x).advance := by
  obtain ⟨-, -, -, hrhead, -, hwqb, -, -, htarget⟩ := hp
  have hiff : dist x.aw x.target x.rhead ≤ dist x.aw x.wqb x.rhead ↔ (h.standing x).target ≤ (h.standing x).wqb := by
    rw [hrhead, hwqb, htarget, Fifo.dist_pointerAt ht htC, Fifo.dist_pointerAt hw hwC]
    exact Nat.sub_le_sub_iff_right hw
  rw [x.advance_eq, Standing.advance, if_congr hiff rfl rfl]
  split
  · have e : h.rhead + dist x.aw x.target x.rhead = h.target := by
      rw [hrhead, htarget, Fifo.add_dist_pointerAt ht htC]
    simpa [History.after, History.standing, Fifo.wqb, Fifo.rqb] using e
  · have e : h.rhead + dist x.aw x.wqb x.rhead = h.wqb := by
      rw [hrhead, hwqb, Fifo.add_dist_pointerAt hw hwC]
    simpa [History.after, History.standing, Fifo.wqb, Fifo.rqb] using e

/-- `SYNC_W2R` on positions: the view moves on within what is published. -/
theorem Fifo.Follows.after_syncW2R (hf : x.Follows h) (hi : x.Inv) {v : Nat}
    (hv : drawAdmitted x.aw v x.wqb x.wpub = true) :
    ((h.after x (x.syncW2R v) []).standing (x.syncW2R v)).Ordered x.capacity := by
  obtain ⟨hwptr, hwpub, hrqb, hrhead, hrpub, hwqb, hrest⟩ := hf.pointers
  obtain ⟨c0, c1, c2, c3, c4, c5⟩ := hf.chain
  have ho := hf.ordered hi
  obtain ⟨hvr, hlow, hhigh⟩ := drawn_spec hv
  let w := h.wqb + dist x.aw (BitVec.ofNat 16 v) x.wqb
  have hw : BitVec.ofNat 16 v = pointerAt x.aw w := by
    have e := eq_pointerAt_add_dist hvr h.wqb
    rwa [← hwqb] at e
  have hle : w ≤ h.wpub := by
    have e : dist x.aw x.wpub x.wqb = h.wpub - h.wqb := by rw [hwpub, hwqb, Fifo.dist_pointerAt c3 (by omega)]
    omega
  have hlt : h.wqb < w := by omega
  have hord := ho.syncW2R (w := w) hlt hle
  rcases x.syncW2R_cases v with ⟨hd, e⟩ | ⟨hd, e⟩ <;> rw [e]
  · rw [if_neg (show ¬ (h.standing x).drain = true from Bool.eq_false_iff.mp hd)] at hord
    convert hord using 1
    simp [History.after, History.standing, Fifo.wqb, Fifo.rqb, w]
  · rw [if_pos (show (h.standing x).drain = true from hd)] at hord
    obtain ⟨-, d2, d3, -⟩ := ho.draining hd
    change h.rhead < h.target at d2
    change h.target ≤ h.accepted.length at d3
    convert hord using 1
    have hadv := History.standing_advance (x := { x with wq := gray (BitVec.ofNat 16 v) }) (h := { h with wqb := w })
      ⟨hwptr, hwpub, hrqb, hrhead, hrpub, (ungray_gray _).trans hw, hrest⟩ (c2.trans hlt.le) ?_ d2.le ?_
    · refine Eq.trans ?_ (hadv.trans ?_)
      · simp [History.after, History.standing, Fifo.wqb, Fifo.rqb, w]
      · simp [History.standing]
    · change w ≤ h.rhead + x.capacity
      omega
    · change h.target ≤ h.rhead + x.capacity
      omega

/-- `CAPTURE` on positions: the mark becomes the target. -/
theorem Fifo.Follows.after_capture (hf : x.Follows h) (hi : x.Inv) (hne : x.fr ≠ x.flReq) :
    ((h.after x x.capture []).standing x.capture).Ordered x.capacity := by
  obtain ⟨hwptr, hwpub, hrqb, hrhead, hrpub, hwqb, hmark, hnext, -⟩ := hf.pointers
  obtain ⟨c0, c1, c2, c3, c4, c5⟩ := hf.chain
  obtain ⟨-, hlen⟩ := hf.publishHold
  have ho := hf.ordered hi
  have hle : h.rhead ≤ h.mark := ho.rhead_le_mark fun e => hne (ho.fr_eq.trans e.symm)
  have hiff : (h.standing x).mark = (h.standing x).rhead ↔ x.flMark = x.rhead := by
    refine ⟨fun e => ?_, fun e => ?_⟩
    · rw [hmark, hrhead]
      exact congrArg (pointerAt x.aw) e
    · have hd := Fifo.dist_pointerAt (x := x) hle (by omega)
      rw [← hmark, ← hrhead, e, dist_self] at hd
      change h.mark = h.rhead
      omega
  have hord := ho.capture hne
  rw [x.capture_eq]
  split
  · rw [if_pos (hiff.mpr ‹_›)] at hord
    convert hord using 1
    simp [History.after, History.standing, Fifo.wqb, Fifo.rqb, Ne.symm hne]
  · rw [if_neg (mt hiff.mp ‹_›)] at hord
    convert hord using 1
    have hadv := History.standing_advance (h := { h with target := h.mark })
      (x := { x with fr := x.flReq, target := x.flMark, flAck := x.flReq, drain := true })
      ⟨hwptr, hwpub, hrqb, hrhead, hrpub, hwqb, hmark, hnext, hmark⟩ c2 ?_ hle ?_
    · refine Eq.trans ?_ (hadv.trans ?_)
      · simp [History.after, History.standing, Fifo.wqb, Fifo.rqb, Ne.symm hne]
      · simp [History.standing]
    · change h.wqb ≤ h.rhead + x.capacity
      omega
    · change h.mark ≤ h.rhead + x.capacity
      omega

/-- `FLUSH_REQ` on positions. -/
theorem Fifo.Follows.after_flushReq (hf : x.Follows h) (hi : x.Inv) :
    ((h.after x x.flushReq []).standing x.flushReq).Ordered x.capacity := by
  have ho := hf.ordered hi
  obtain ⟨hwptr, -, -, -, -, -, -, hnext, -⟩ := hf.pointers
  rw [x.flushReq_eq]
  split
  · convert ho.request ‹_› using 1
    simp [History.after, History.standing, Fifo.wqb, Fifo.rqb, hi.flPend_eq_false ‹_›]
  · convert ho.remember ‹_› using 1
    have hsame (hp : x.flPend = true) (e : x.wptr = x.flNext) : h.next = h.accepted.length := by
      obtain ⟨hout, hmn, hnl⟩ := ho.pend hp
      change h.next ≤ h.accepted.length at hnl
      obtain ⟨-, -, hpub, -⟩ := ho.span
      have hwm := ho.wpub_le_mark hout
      have hlen := ho.wptr_le
      have hd := Fifo.dist_pointerAt (x := x) hnl (by
        change h.accepted.length ≤ h.rqb + x.capacity at hlen
        change h.rqb ≤ h.wpub at hpub
        change h.wpub ≤ h.mark at hwm
        change h.mark ≤ h.next at hmn
        omega)
      rw [← hwptr, ← hnext, e, dist_self] at hd
      omega
    cases hp : x.flPend with
    | false => simp [History.after, History.standing, Fifo.wqb, Fifo.rqb, hp]
    | true =>
      by_cases hs : x.wptr = x.flNext
      · simp [History.after, History.standing, Fifo.wqb, Fifo.rqb, hp, hs, hsame hp hs]
      · simp [History.after, History.standing, Fifo.wqb, Fifo.rqb, hp, hs]

/-- `ACK_SYNC` on positions: a remembered mark becomes the mark. -/
theorem Fifo.Follows.after_ackSync (hf : x.Follows h) (hi : x.Inv) (hne : x.fa ≠ x.flAck) :
    ((h.after x x.ackSync []).standing x.ackSync).Ordered x.capacity := by
  have hord := (hf.ordered hi).ackSync hne
  rw [x.ackSync_eq]
  split
  · rw [if_pos (show (h.standing x).flAck = (h.standing x).flReq ∧ (h.standing x).flPend = true from ‹_›)] at hord
    convert hord using 1
    simp [History.after, History.standing, Fifo.wqb, Fifo.rqb, *]
  · rw [if_neg (show ¬ ((h.standing x).flAck = (h.standing x).flReq ∧ (h.standing x).flPend = true) from ‹_›)] at hord
    convert hord using 1
    simp [History.after, History.standing, Fifo.wqb, Fifo.rqb]

/-- `SYNC_R2W` on positions. -/
theorem Fifo.Follows.after_syncR2W (hf : x.Follows h) (hi : x.Inv) {v : Nat}
    (hv : drawAdmitted x.aw v x.rqb x.rpub = true) :
    ((h.after x (x.syncR2W v) []).standing (x.syncR2W v)).Ordered x.capacity := by
  obtain ⟨-, -, hrqb, -, hrpub, -⟩ := hf.pointers
  obtain ⟨c0, c1, c2, c3, c4, c5⟩ := hf.chain
  obtain ⟨-, -, hhigh⟩ := drawn_spec hv
  have e : dist x.aw x.rpub x.rqb = h.rpub - h.rqb := by rw [hrpub, hrqb, Fifo.dist_pointerAt c0 (by omega)]
  have hord := (hf.ordered hi).view (r := h.rqb + dist x.aw (BitVec.ofNat 16 v) x.rqb) (Nat.le_add_right ..)
    (show _ ≤ h.rpub by omega)
  convert hord using 1
  simp [History.after, History.standing, Fifo.wqb, Fifo.rqb]

theorem Fifo.lim_eq_pointerAt (hp : x.PointersAt h) : x.lim = pointerAt x.aw (h.standing x).lim := by
  obtain ⟨hwptr, -, -, -, -, -, hmark, -⟩ := hp
  rw [Fifo.lim_eq, Standing.lim, ite_not, apply_ite (pointerAt x.aw)]
  exact if_congr Iff.rfl hwptr hmark

/-- After each move the order of R49 holds of the history gone on. -/
theorem FifoMove.ordered_after {f : FifoId} {e : Event} {a c d : List Byte} (hm : FifoMove f e x a c d y)
    (hf : x.Follows h) (hi : x.Inv) : ((h.after x y a).standing y).Ordered x.capacity := by
  have ho := hf.ordered hi
  obtain ⟨hwptr, hwpub, hrqb, hrhead, hrpub, hwqb, -⟩ := hf.pointers
  obtain ⟨c0, c1, c2, c3, c4, c5⟩ := hf.chain
  cases hm with
  | stay => simpa [History.after] using ho
  | push hfull =>
    have hlt := hi.wptr_lt hfull
    rw [Fifo.pos, hwptr, hrqb, Fifo.dist_pointerAt (by omega) c5] at hlt
    have hord := ho.push (show h.accepted.length < h.rqb + x.capacity by omega)
    convert hord using 1
    simp [History.after, History.standing, Fifo.wqb, Fifo.rqb]
  | overflow => exact hf.after_flushReq hi
  | pop hv =>
    obtain ⟨hd, hlt⟩ := hi.visible hv
    rw [Fifo.pos, Fifo.pos, hrhead, hwqb, hrqb, Fifo.dist_pointerAt (by omega) (by omega),
      Fifo.dist_pointerAt (by omega) (by omega)] at hlt
    convert ho.pop hd (show h.rhead < h.wqb by omega) using 1
    simp [History.after, History.standing, Fifo.wqb, Fifo.rqb, dist_ptrSucc_self]
  | wPub _ hne =>
    have hlim : (h.standing x).wpub ≠ (h.standing x).lim := fun e =>
      hne (hwpub.trans ((congrArg (pointerAt x.aw) e).trans (Fifo.lim_eq_pointerAt hf.pointers).symm))
    convert ho.wPub (Nat.lt_of_le_of_ne ho.wpub_le_lim hlim) using 1
    simp [History.after, History.standing, Fifo.wqb, Fifo.rqb, dist_ptrSucc_self]
  | rPub _ hne =>
    have hlt : h.rpub < h.rhead := Nat.lt_of_le_of_ne c1 fun e => hne (by rw [hrpub, hrhead, e])
    convert ho.rPub hlt using 1
    simp [History.after, History.standing, Fifo.wqb, Fifo.rqb, dist_ptrSucc_self]
  | syncR2W _ _ hv => exact hf.after_syncR2W hi hv
  | syncW2R _ _ hv => exact hf.after_syncW2R hi hv
  | capture _ hne => exact hf.after_capture hi hne
  | ackSync _ hne => exact hf.after_ackSync hi hne

/-- Every move of a FIFO goes on with its history. -/
theorem Fifo.Follows.after_move {f : FifoId} {e : Event} {a c d : List Byte} (hf : x.Follows h)
    (hm : FifoMove f e x a c d y) (hi : x.Inv) : y.Follows (h.after x y a) := by
  have hord := hm.ordered_after hf hi
  rw [← hm.capacity_eq] at hord
  exact hord.follows (hm.pointersAt hf.pointers hi (hi.move hm)) (hf.mark_le_after y a) (hm.dataAt hf hi.range.2.1)

/-- In the positions of a history the mark is in the modular order wherever the view has not passed it. -/
theorem Fifo.Follows.markInOrder (hf : x.Follows h) (hle : h.rqb ≤ h.mark) : x.MarkInOrder := by
  obtain ⟨hwptr, -, hrqb, -, -, -, hmark, -⟩ := hf.pointers
  obtain ⟨c0, c1, c2, c3, c4, c5⟩ := hf.chain
  obtain ⟨-, hlen⟩ := hf.publishHold
  rw [Fifo.MarkInOrder, Fifo.pos, Fifo.pos, hrqb, hmark, hwptr, Fifo.dist_pointerAt hle (by omega),
    Fifo.dist_pointerAt (by omega) c5]
  omega

theorem Fifo.Follows.rqb_le_mark (hf : x.Follows h) (ho : x.flushOutstanding = true) : h.rqb ≤ h.mark := by
  obtain ⟨c0, c1, c2, c3, c4, c5⟩ := hf.chain
  obtain ⟨hlim, -⟩ := hf.publishHold
  rw [if_pos ho] at hlim
  omega

theorem Fifo.reset_follows (aw : Fin 16) : (Fifo.reset aw).Follows History.empty := by
  have h0 : pointerAt aw 0 = 0 := ptrAdd_zero (inRange_iff.mpr (ptrModulus_pos aw))
  refine Standing.Ordered.follows ?_ ?_ le_rfl fun p _ hp => absurd hp (Nat.not_lt_zero p)
  · exact Standing.ordered_iff.mpr (by simp [History.standing, History.empty, Fifo.reset, Standing.lim])
  · simp only [Fifo.PointersAt, Fifo.reset_rqb, Fifo.reset_wqb]
    exact ⟨h0.symm, h0.symm, h0.symm, h0.symm, h0.symm, h0.symm, h0.symm, h0.symm, h0.symm⟩

end

/-! ### Drawing an event and lowering the strobes leave the FIFOs alone -/

section
variable (s : State) (f : FifoId) (e : Event)

@[simp] theorem State.drawEvent_fifo : s.drawEvent.fifo f = s.fifo f := by
  unfold State.drawEvent
  split <;> cases f <;> rfl

@[simp] theorem State.strobesDown_fifo : s.strobesDown.fifo f = s.fifo f := by cases f <;> rfl

@[simp] theorem acceptedBy_strobesDown : acceptedBy f e s.strobesDown = acceptedBy f e s := by cases f <;> rfl

@[simp] theorem takenBy_strobesDown : takenBy f e s.strobesDown = takenBy f e s := by cases f <;> rfl

@[simp] theorem discardedBy_strobesDown : discardedBy f e s.strobesDown = discardedBy f e s := by cases f <;> rfl

@[simp] theorem acceptedBy_drawEvent : acceptedBy f e s.drawEvent = acceptedBy f e s := by
  unfold State.drawEvent
  split <;> cases f <;> rfl

@[simp] theorem takenBy_drawEvent : takenBy f e s.drawEvent = takenBy f e s := by
  unfold State.drawEvent
  split <;> cases f <;> rfl

@[simp] theorem discardedBy_drawEvent : discardedBy f e s.drawEvent = discardedBy f e s := by
  unfold State.drawEvent
  split <;> cases f <;> rfl

end

/-- A step is a move of each FIFO, as the bytes of its event say. -/
theorem fifoMove_of_step {s t : State} (f : FifoId) (he : isResetEvent s.nextEvent = false) (ht : step s = .next t) :
    FifoMove f s.nextEvent (s.fifo f) (acceptedBy f s.nextEvent s) (takenBy f s.nextEvent s)
      (discardedBy f s.nextEvent s) (t.fifo f) := by
  simpa using fifoMove_of_stepEvent f he ht

/-- A reset event leaves a FIFO or resets it (70_reset_and_hazards.md R350). -/
theorem fifo_of_reset {s t : State} {e : Event} (f : FifoId) (he : isResetEvent e = true)
    (ht : stepEvent e s = .next t) : t.fifo f = s.fifo f ∨ ∃ aw, t.fifo f = Fifo.reset aw := by
  obtain ⟨a, b, rfl⟩ := isResetEvent_iff.mp he
  rcases s.setResetPins_cases a b with ⟨-, -, e⟩ | ⟨-, -, -, e⟩ | ⟨-, e⟩ <;> cases e.symm.trans ht
  · exact .inl (by cases f <;> rfl)
  · exact .inr ⟨(s.fifo f).aw, by cases f <;> rfl⟩

/-- Settles O59: every move goes on with the history, in the standings of its positions. -/
theorem stepKeepsHistory : Obligations.StepKeepsHistory := by
  refine ⟨fun c f => ?_, fun f s t h hi hf ht => ⟨fun he => ?_, fun he => ?_⟩,
    fun x h hf => ⟨hf.rqb_le_mark, hf.markInOrder⟩⟩
  · obtain ⟨aw, e⟩ := State.ofConfig_fifo c f
    exact e ▸ Fifo.reset_follows aw
  · exact hf.after_move (fifoMove_of_step f he ht) (hi.fifo f)
  · rcases fifo_of_reset f he ht with e | ⟨aw, e⟩
    · exact .inl (by simpa using e)
    · exact .inr (e ▸ Fifo.reset_follows aw)

/-! ### The mark clause read without a condition -/

/-- A block whose TXF holds one byte overflows, acknowledges the flush, and moves one byte on twice: the view passes the
mark of the acknowledged flush. -/
def stalingRun : List Event :=
  [.appCmd (encode (.aTxEnq 1)), .appCmd (encode (.aTxEnq 2)), .internal (.wPub .tx), .internal (.syncW2R .tx 1),
   .internal (.capture .tx), .internal (.ackSync .tx), .internal (.rPub .tx), .internal (.syncR2W .tx 1),
   .appCmd (encode (.aTxEnq 3)), .internal (.wPub .tx), .internal (.syncW2R .tx 0), .serCmd (encode (.sTxDeq 0)),
   .internal (.rPub .tx), .internal (.syncR2W .tx 0)]

/-- Settles O40: the run `stalingRun`, whose second event requests the flush. -/
theorem staleFlushMarkLeavesOrder : Obligations.StaleFlushMarkLeavesOrder :=
  ⟨stalingRun, _, by decide, rfl, ⟨2, _, rfl, by decide, by decide⟩, by decide, by decide, by decide⟩

end Sys2Proof.Machine

/-! SUPPORT. The two byte streams (20_memory.md R85): every byte of a FIFO is accounted for, step by step. -/

namespace Sys2Proof.Machine

/-! ### Bytes between two pointers -/

/-- The `n` bytes from pointer `p` on. -/
def Fifo.segment (x : Fifo) (p : Ptr) (n : Nat) : List Byte := (List.range n).map fun k => x.byteAt (ptrAdd x.aw p k)

section
variable {x y : Fifo} {p : Ptr} {m n : Nat}

theorem Fifo.contents_eq_segment (x : Fifo) : x.contents = x.segment x.rhead (dist x.aw x.wptr x.rhead) := rfl

theorem Fifo.skippedTo_eq_segment (x y : Fifo) : x.skippedTo y = x.segment x.rhead (dist x.aw y.rhead x.rhead) := rfl

theorem Fifo.segment_add (x : Fifo) (p : Ptr) (m n : Nat) :
    x.segment p (m + n) = x.segment p m ++ x.segment (ptrAdd x.aw p m) n := by
  simp [Fifo.segment, List.range_add, ptrAdd_ptrAdd]

theorem Fifo.segment_one (hp : inRange x.aw p = true) : x.segment p 1 = [x.byteAt p] := by
  simp [Fifo.segment, ptrAdd_zero hp]

/-- Bytes stay where neither the storage of their slots nor the pointer width changes. -/
theorem Fifo.segment_congr (haw : y.aw = x.aw)
    (hmem : ∀ k < n, y.mem.read (slotOf x.aw (ptrAdd x.aw p k)) = x.mem.read (slotOf x.aw (ptrAdd x.aw p k))) :
    y.segment p n = x.segment p n := by
  refine List.map_congr_left fun k hk => ?_
  rw [Fifo.byteAt, Fifo.byteAt, haw]
  exact hmem k (List.mem_range.mp hk)

/-- What a FIFO holds splits at a pointer that its read pointer moves to. -/
theorem Fifo.contents_split (hr : x.InRange) (haw : y.aw = x.aw) (hwptr : y.wptr = x.wptr) (hmem : y.mem = x.mem)
    (hy : inRange x.aw y.rhead = true) (hle : dist x.aw y.rhead x.rhead ≤ dist x.aw x.wptr x.rhead) :
    x.contents = x.skippedTo y ++ y.contents := by
  obtain ⟨n, hn⟩ := Nat.exists_eq_add_of_le hle
  have hrhead : ptrAdd x.aw x.rhead (dist x.aw y.rhead x.rhead) = y.rhead := ptrAdd_dist hy (by simp [hr])
  have hrest : dist x.aw x.wptr y.rhead = n := by
    have hlt : dist x.aw x.wptr x.rhead < ptrModulus x.aw := dist_lt ..
    have e : x.wptr = ptrAdd x.aw y.rhead n := by
      rw [← hrhead, ptrAdd_ptrAdd, ← hn, ptrAdd_dist (by simp [hr]) (by simp [hr])]
    rw [e, dist_ptrAdd_of_lt _ (by omega)]
  rw [x.contents_eq_segment, hn, x.segment_add, hrhead, y.contents_eq_segment, haw, hwptr, hrest,
    Fifo.segment_congr haw fun _ _ => congrArg (Memory.read · _) hmem]
  rfl

/-- An accepted byte is the last one. -/
theorem Fifo.Inv.push_contents (h : x.Inv) (hf : x.wfull = false) (b : Byte) :
    (x.push b).contents = x.contents ++ [b] := by
  have hr := h.range
  have hlt : dist x.aw x.wptr x.rhead < x.capacity := by
    have hlen := h.contents_length_eq
    have hw := h.wptr_lt hf
    rw [x.contents_length] at hlen
    omega
  have hM := x.ptrModulus_eq_capacity
  have hlast : ptrAdd x.aw x.rhead (dist x.aw x.wptr x.rhead) = x.wptr := ptrAdd_dist (by simp [hr]) (by simp [hr])
  have hlen : dist x.aw (ptrSucc x.aw x.wptr) x.rhead = dist x.aw x.wptr x.rhead + 1 :=
    dist_ptrSucc (by simp [hr]) (by simp [hr]) (by omega)
  rw [(x.push b).contents_eq_segment, Fifo.push_aw, Fifo.push_wptr, Fifo.push_rhead, hlen, Fifo.segment_add,
    Fifo.push_aw, hlast, Fifo.segment_one (by simp [hr]), Fifo.segment_congr (y := x.push b) (x := x) rfl fun k hk => ?_]
  · have hb : (x.push b).byteAt x.wptr = b := Memory.read_write_same hr.2.1 _ b
    rw [hb]
    rfl
  · have hs := slotOf_ptrAdd_ne x.rhead hk (hlt.trans_le (Nat.le_add_left ..))
    rw [hlast] at hs
    exact Memory.read_write_of_ne b hs

end

/-! ### What a move takes and discards -/

section
variable {f : FifoId} {e : Event} {x y : Fifo} {a c d : List Byte}

/-- `ADVANCE` goes no further than the target (R255). -/
theorem Fifo.dist_advance_le (x : Fifo) : dist x.aw x.advance.rhead x.rhead ≤ dist x.aw x.target x.rhead := by
  rcases x.advance_cases with ⟨-, e⟩ | ⟨hlt, e⟩ <;> rw [e]
  exact hlt.le

/-- A capture skips no further than the mark (R257). -/
theorem Fifo.dist_capture_le (x : Fifo) : dist x.aw x.capture.rhead x.rhead ≤ dist x.aw x.flMark x.rhead := by
  rcases x.capture_cases with ⟨-, e⟩ | ⟨-, e⟩ <;> rw [e]
  · simp
  · exact Fifo.dist_advance_le _

/-- A view update skips no further than the target, and nothing where the FIFO does not drain (R254). -/
theorem Fifo.dist_syncW2R_le (x : Fifo) (v : Nat) :
    dist x.aw (x.syncW2R v).rhead x.rhead ≤ if x.drain then dist x.aw x.target x.rhead else 0 := by
  rcases x.syncW2R_cases v with ⟨hd, e⟩ | ⟨hd, e⟩ <;> rw [e]
  · simp
  · rw [if_pos hd]
    exact Fifo.dist_advance_le { x with wq := gray (BitVec.ofNat 16 v) }

theorem Fifo.skippedTo_length (x y : Fifo) : (x.skippedTo y).length = dist x.aw y.rhead x.rhead := by
  simp [Fifo.skippedTo]

theorem Fifo.skippedTo_of_dist_eq_zero (h : dist x.aw y.rhead x.rhead = 0) : x.skippedTo y = [] := by
  simp [Fifo.skippedTo, h]

/-- The bytes that leave in a move are those that the read pointer passes. -/
theorem FifoMove.exits (hm : FifoMove f e x a c d y) (hi : x.Inv) : c ++ d = x.skippedTo y := by
  cases hm with
  | pop =>
    rw [x.skippedTo_eq_segment, Fifo.pop_rhead, dist_ptrSucc_self, Fifo.segment_one (by simp [hi.range])]
    rfl
  | @syncW2R v =>
    split
    · rfl
    · have hle := x.dist_syncW2R_le v
      rw [if_neg ‹_›] at hle
      exact (Fifo.skippedTo_of_dist_eq_zero (Nat.le_zero.mp hle)).symm
  | capture => rfl
  | _ => exact (Fifo.skippedTo_of_dist_eq_zero (by simp)).symm

/-- The read pointer passes no more than the FIFO holds. -/
theorem FifoMove.dist_rhead_le (hm : FifoMove f e x a c d y) (hi : x.Inv) :
    dist x.aw y.rhead x.rhead ≤ dist x.aw x.wptr x.rhead := by
  have hr := hi.range
  have ho := hi.ordered
  have hw : x.pos x.rhead ≤ x.pos x.wptr := ho.rhead_le.trans (ho.wqb_le.trans ho.wpub_le)
  have within {p : Ptr} (hp : inRange x.aw p = true) (hlow : x.pos x.rhead ≤ x.pos p) (hhigh : x.pos p ≤ x.pos x.wptr) :
      dist x.aw p x.rhead ≤ dist x.aw x.wptr x.rhead := by
    rw [Fifo.dist_eq_pos_sub hr hp (by simp [hr]) hlow, Fifo.dist_eq_pos_sub hr (by simp [hr]) (by simp [hr]) hw]
    exact Nat.sub_le_sub_right hhigh _
  cases hm with
  | pop hv =>
    obtain ⟨-, hlt⟩ := hi.visible hv
    have hq : x.pos x.wqb ≤ x.pos x.wptr := ho.wqb_le.trans ho.wpub_le
    rw [Fifo.pop_rhead, dist_ptrSucc_self, Fifo.dist_eq_pos_sub hr (by simp [hr]) (by simp [hr]) hw]
    omega
  | @syncW2R v =>
    refine (x.dist_syncW2R_le v).trans ?_
    split
    · obtain ⟨-, hlt, hle, -⟩ := ho.draining ‹_›
      exact within (by simp [hr]) hlt.le hle
    · exact Nat.zero_le _
  | capture _ hne =>
    have hq : x.flReq ≠ x.flAck := fun e => hne (ho.fr_eq.trans e.symm)
    have hfa : x.fa = x.flAck := ho.phase.resolve_left hq
    exact x.dist_capture_le.trans (within (by simp [hr]) (ho.rhead_le_mark hq) (ho.mark_le fun e => hq (e.trans hfa)))
  | _ => simp

/-- R85 for one move: what was there and what enters is, in order, what leaves and what is then there. -/
theorem FifoMove.contents (hm : FifoMove f e x a c d y) (hi : x.Inv) : x.contents ++ a = c ++ d ++ y.contents := by
  rcases hm.accepted with ⟨rfl, hwptr, hmem⟩ | ⟨b, rfl, hf, -⟩
  · have hy := (hi.move hm).range
    rw [List.append_nil, hm.exits hi]
    exact Fifo.contents_split hi.range hm.aw_eq hwptr hmem (hm.aw_eq ▸ by simp [hy]) (hm.dist_rhead_le hi)
  · cases hm with
    | push => exact (hi.push_contents hf b).symm

/-- A flush discards no byte beyond the captured mark. -/
theorem FifoMove.discarded_length_le (hm : FifoMove f e x a c d y) : d.length ≤ dist x.aw y.target x.rhead := by
  cases hm with
  | @syncW2R v =>
    split
    · have hle := x.dist_syncW2R_le v
      rw [if_pos ‹_›] at hle
      rwa [x.skippedTo_length, Fifo.syncW2R_target]
    · exact Nat.zero_le _
  | capture =>
    rw [x.skippedTo_length, Fifo.capture_target]
    exact x.dist_capture_le
  | _ => exact Nat.zero_le _

/-- A FIFO starts to drain in a capture only. -/
theorem FifoMove.drain (hm : FifoMove f e x a c d y) (hd : x.drain = false) :
    y.drain = false ∨ (e = .internal (.capture f) ∧ x.fr ≠ x.flReq) := by
  cases hm with
  | capture he hne => exact .inr ⟨he, hne⟩
  | @syncW2R v =>
    rcases x.syncW2R_cases v with ⟨-, e⟩ | ⟨hd', -⟩
    · exact .inl (e ▸ hd)
    · exact absurd (hd.symm.trans hd') Bool.false_ne_true
  | overflow => exact .inl ((congrArg ReadEnd.drain x.flushReq_readEnd).trans hd)
  | ackSync => exact .inl ((congrArg ReadEnd.drain x.ackSync_readEnd).trans hd)
  | _ => exact .inl hd

end

/-- Settles O60: the accounting of the move of each FIFO. -/
theorem eachStepAccountsForEveryByte : Obligations.EachStepAccountsForEveryByte := by
  intro f s t hi he ht
  have hm := fifoMove_of_step f he ht
  refine ⟨hm.contents (hi.fifo f), hm.discarded_length_le, fun hne => ?_⟩
  rcases discardedBy_cases f s.nextEvent s with e | ⟨hc, -⟩ | ⟨v, e, -, -, hd, -⟩
  · exact absurd e hne
  · exact .inl hc
  · exact .inr ⟨hd, v, e⟩

/-! ### Runs -/

section
variable {f : FifoId} {e : Event} {es : List Event} {s t : State}

/-- A transition that is no reset leaves the reset inputs. -/
theorem inReset_of_stepEvent (he : isResetEvent e = false) (ht : stepEvent e s = .next t) : t.inReset = s.inReset := by
  rcases transition_of_stepEvent he ht with ⟨-, rfl⟩ | ⟨-, htr⟩
  · rfl
  · obtain ⟨-, -, -, hext⟩ := htr.frame
    exact State.inReset_congr hext

theorem capturesFlush_of_ne (hr : s.inReset = false) (hne : (s.fifo f).fr ≠ (s.fifo f).flReq) :
    capturesFlush f (.internal (.capture f)) s = true := by
  simp [capturesFlush, hr, State.internalEnabled, Fifo.captureEnabled, hne]

/-- What a run takes is, in order, among what leaves. -/
theorem obtained_sublist_byte (l : List Exit) : (l.filterMap Exit.obtained).Sublist (l.map Exit.byte) := by
  induction l with
  | nil => exact .slnil
  | cons x l ih =>
    cases x with
    | taken b => exact ih.cons_cons b
    | discarded b => exact ih.cons b

theorem exitsIn_obtained (f : FifoId) (es : List Event) (s : State) :
    (exitsIn f es s).filterMap Exit.obtained = takenIn f es s := by
  induction es generalizing s with
  | nil => rfl
  | cons e es ih =>
    rw [exitsIn, takenIn]
    split
    · rw [List.filterMap_append, exitsBy_obtained, ih]
    · rfl
    · rfl

/-- R85 over a run. -/
theorem exitsIn_contents (hi : s.Inv) (hes : ∀ e ∈ es, isResetEvent e = false) (ht : runEvents es s = .next t) :
    (exitsIn f es s).map Exit.byte ++ (t.fifo f).contents = (s.fifo f).contents ++ acceptedIn f es s := by
  induction es generalizing s with
  | nil =>
    cases ht
    simp [exitsIn, acceptedIn]
  | cons e es ih =>
    obtain ⟨he, hes⟩ := List.forall_mem_cons.mp hes
    obtain ⟨u, hu, ht⟩ := runEvents_cons_inv ht
    have hm := fifoMove_of_stepEvent f he hu
    rw [State.strobesDown_fifo, acceptedBy_strobesDown, takenBy_strobesDown, discardedBy_strobesDown] at hm
    rw [exitsIn_cons f hu, acceptedIn_cons f hu, List.map_append, List.append_assoc, ih (hi.strobesDown.stepEvent hu) hes ht,
      exitsBy_bytes, ← List.append_assoc, ← List.append_assoc, hm.contents (hi.fifo f)]

/-- Where a FIFO does not drain and no flush of it is captured, every byte that leaves is taken. -/
theorem exitsIn_eq_takenIn (hr : s.inReset = false) (hes : ∀ e ∈ es, isResetEvent e = false)
    (ht : runEvents es s = .next t) (hd : (s.fifo f).drain = false) (hfl : flushesIn f es s = false) :
    (exitsIn f es s).map Exit.byte = takenIn f es s := by
  induction es generalizing s with
  | nil => rfl
  | cons e es ih =>
    obtain ⟨he, hes⟩ := List.forall_mem_cons.mp hes
    obtain ⟨u, hu, ht⟩ := runEvents_cons_inv ht
    have hm := fifoMove_of_stepEvent f he hu
    rw [State.strobesDown_fifo] at hm
    rw [flushesIn_cons f hu, Bool.or_eq_false_iff] at hfl
    obtain ⟨hc, hfl⟩ := hfl
    have hnone : discardedBy f e s = [] := by
      rcases discardedBy_cases f e s with e | ⟨hc', -⟩ | ⟨-, -, -, -, hd', -⟩
      · exact e
      · exact absurd (hc.symm.trans hc') Bool.false_ne_true
      · exact absurd (hd.symm.trans hd') Bool.false_ne_true
    have hd' : (u.fifo f).drain = false := by
      refine (hm.drain hd).resolve_right fun ⟨hcap, hne⟩ => ?_
      rw [hcap, capturesFlush_of_ne hr hne] at hc
      cases hc
    rw [exitsIn_cons f hu, takenIn_cons f hu, List.map_append, exitsBy_bytes, hnone, List.append_nil,
      ih ((inReset_of_stepEvent he hu).trans hr) hes ht hd' hfl]

end

/-- Settles O47: the accounting of each step, along the run. -/
theorem streamsAreSubsequences : Obligations.StreamsAreSubsequences := by
  intro f es s t hi hr hes ht
  have hall := exitsIn_contents (f := f) hi hes ht
  refine ⟨?_, ⟨hall, exitsIn_obtained f es s⟩, fun hd hfl => ?_⟩
  · rw [← hall, ← exitsIn_obtained]
    exact (obtained_sublist_byte _).append_right _
  · rw [← hall, exitsIn_eq_takenIn hr hes ht hd hfl]

end Sys2Proof.Machine

/-! SUPPORT. Settling (20_memory.md R97): every internal step leaves the state that a settle ends in, and a catch-up
step brings it nearer. -/

namespace Sys2Proof.Machine

/-! ### A settled FIFO -/

/-- Every pointer of the chain is seen, and no flush is under way. -/
structure Fifo.Calm (x : Fifo) : Prop where
  wpub : x.wpub = x.wptr
  wqb : x.wqb = x.wptr
  rpub : x.rpub = x.rhead
  rqb : x.rqb = x.rhead
  fr : x.fr = x.flReq
  fa : x.fa = x.flReq
  flAck : x.flAck = x.flReq
  flPend : x.flPend = false
  drain : x.drain = false

/-- Where the read pointer ends: the last flush that is under way discards what lies before its mark. -/
def Fifo.calmHead (x : Fifo) : Ptr :=
  if x.flPend then x.flNext else if x.fr ≠ x.flReq then x.flMark else if x.drain then x.target else x.rhead

/-- The FIFO that settling ends in. -/
def Fifo.calmed (x : Fifo) : Fifo :=
  { x with
    wpub := x.wptr, rq := gray x.calmHead, flReq := x.flReq ^^ x.flPend
    flMark := if x.flPend then x.flNext else x.flMark
    flPend := false, fa := x.flReq ^^ x.flPend
    rhead := x.calmHead, rpub := x.calmHead, wq := gray x.wptr, fr := x.flReq ^^ x.flPend, flAck := x.flReq ^^ x.flPend
    drain := false
    target := if x.flPend then x.flNext else if x.fr ≠ x.flReq then x.flMark else x.target }

section
variable {x : Fifo}

theorem Fifo.calmed_calm (x : Fifo) : x.calmed.Calm :=
  ⟨rfl, ungray_gray _, rfl, ungray_gray _, rfl, rfl, rfl, rfl, rfl⟩

/-- Settling leaves a settled FIFO. -/
theorem Fifo.Calm.calmed_eq (h : x.Calm) : x.calmed = x := by
  obtain ⟨hwpub, hwqb, hrpub, hrqb, hfr, hfa, hack, hpend, hdrain⟩ := h
  have hwq : gray x.wptr = x.wq := by rw [← hwqb, Fifo.wqb, gray_ungray]
  have hrq : gray x.rhead = x.rq := by rw [← hrqb, Fifo.rqb, gray_ungray]
  cases x
  simp_all [Fifo.calmed, Fifo.calmHead]

theorem Fifo.Calm.lim_eq (h : x.Calm) : x.lim = x.wptr := by
  rw [Fifo.lim_eq, if_neg (not_not.mpr h.fa.symm)]

/-- A FIFO of the invariant with no step of its own enabled is settled. -/
theorem Fifo.Inv.calm (h : x.Inv) (hwpub : x.wpub = x.lim) (hrpub : x.rpub = x.rhead) (hrqb : x.rqb = x.rpub)
    (hwqb : x.wqb = x.wpub) (hfr : x.fr = x.flReq) (hfa : x.fa = x.flAck) : x.Calm := by
  have ho := h.ordered
  have hack : x.flAck = x.flReq := ho.fr_eq.symm.trans hfr
  have hq : x.flReq = x.fa := (hfa.trans hack).symm
  have hlim : x.lim = x.wptr := by rw [Fifo.lim_eq, if_neg (not_not.mpr hq)]
  refine ⟨hwpub.trans hlim, hwqb.trans (hwpub.trans hlim), hrpub, hrqb.trans hrpub, hfr, hq.symm, hack,
    h.flPend_eq_false hq, Bool.eq_false_iff.mpr fun hd => ?_⟩
  obtain ⟨d1, d2, d3, -⟩ := ho.draining hd
  have e : x.standing.wqb = x.standing.wptr := congrArg x.pos (hwqb.trans (hwpub.trans hlim))
  omega

/-! ### No internal step changes where settling ends -/

theorem Fifo.calmed_wPub (x : Fifo) : x.wPub.calmed = x.calmed := rfl

theorem Fifo.calmed_rPub (x : Fifo) : x.rPub.calmed = x.calmed := rfl

theorem Fifo.calmed_syncR2W (x : Fifo) (v : Nat) : (x.syncR2W v).calmed = x.calmed := rfl

/-- `ADVANCE` while draining (R255). -/
theorem Fifo.calmed_advance (hd : x.drain = true) : x.advance.calmed = x.calmed := by
  rw [x.advance_eq]
  split <;> simp [Fifo.calmed, Fifo.calmHead, hd]

theorem Fifo.calmed_syncW2R (x : Fifo) (v : Nat) : (x.syncW2R v).calmed = x.calmed := by
  rcases x.syncW2R_cases v with ⟨-, e⟩ | ⟨hd, e⟩ <;> rw [e]
  · rfl
  · exact Fifo.calmed_advance (x := { x with wq := gray (BitVec.ofNat 16 v) }) hd

theorem Fifo.calmed_capture (hne : x.fr ≠ x.flReq) : x.capture.calmed = x.calmed := by
  rcases x.capture_cases with ⟨hm, e⟩ | ⟨-, e⟩ <;> rw [e]
  · simp [Fifo.calmed, Fifo.calmHead, hne, hm]
  · rw [Fifo.calmed_advance rfl]
    simp [Fifo.calmed, Fifo.calmHead, hne]

theorem Fifo.calmed_ackSync (hfr : x.fr = x.flAck) : x.ackSync.calmed = x.calmed := by
  rcases x.ackSync_cases with ⟨hq, hp, e⟩ | ⟨-, e⟩ <;> rw [e]
  · simp [Fifo.calmed, Fifo.calmHead, hp, hfr.trans hq]
  · rfl

/-! ### A catch-up step comes nearer -/

/-- What the write end still owes: its publications, and a view of the last. -/
def Fifo.writeDebt (x : Fifo) : Nat := 2 * dist x.aw x.wptr x.wpub + (x.wqb != x.wpub).toNat

/-- What the read end still owes, once the flushes that are under way are done. -/
def Fifo.readDebt (x : Fifo) : Nat := 2 * dist x.aw x.calmHead x.rpub + (x.rqb != x.rpub).toNat

/-- What the flushes still owe. -/
def Fifo.flushDebt (x : Fifo) : Nat :=
  2 * x.flPend.toNat + (if x.fr ≠ x.flReq then 2 else (x.fa != x.flAck).toNat)

def Fifo.debt (x : Fifo) : Nat := x.writeDebt + x.readDebt + x.flushDebt

/-- An increment of the pointer behind comes one nearer. -/
theorem dist_ptrSucc_right {aw : Fin 16} {a b : Ptr} (ha : inRange aw a = true) (hb : inRange aw b = true) (h : b ≠ a) :
    dist aw a (ptrSucc aw b) + 1 = dist aw a b := by
  obtain ⟨d, hd⟩ := Nat.exists_eq_add_of_le (one_le_dist ha hb h.symm)
  have hlt : dist aw a b < ptrModulus aw := dist_lt ..
  have e : a = ptrAdd aw (ptrSucc aw b) d := by
    rw [ptrSucc_eq_ptrAdd, ptrAdd_ptrAdd, ← hd, ptrAdd_dist ha hb]
  have hd' : dist aw a (ptrSucc aw b) = d := by
    rw [e]
    exact dist_ptrAdd_of_lt _ (by omega)
  omega

/-- The read pointer ends between where it is and `wptr`. -/
theorem Fifo.Inv.calmHead_between (h : x.Inv) :
    inRange x.aw x.calmHead = true ∧ x.pos x.rhead ≤ x.pos x.calmHead ∧ x.pos x.calmHead ≤ x.pos x.wptr := by
  have hr := h.range
  have ho := h.ordered
  have hw : x.pos x.rhead ≤ x.pos x.wpub := ho.rhead_le.trans ho.wqb_le
  unfold Fifo.calmHead
  split
  · obtain ⟨hq, hmn, hn⟩ := ho.pend ‹_›
    exact ⟨by simp [hr], hw.trans ((ho.wpub_le_mark hq).trans hmn), hn⟩
  · split
    · have hq : x.flReq ≠ x.flAck := fun e => ‹x.fr ≠ x.flReq› (ho.fr_eq.trans e.symm)
      have hfa : x.fa = x.flAck := ho.phase.resolve_left hq
      exact ⟨by simp [hr], ho.rhead_le_mark hq, ho.mark_le fun e => hq (e.trans hfa)⟩
    · split
      · obtain ⟨-, hlt, hle, -⟩ := ho.draining ‹_›
        exact ⟨by simp [hr], hlt.le, hle⟩
      · exact ⟨by simp [hr], le_rfl, hw.trans ho.wpub_le⟩

theorem Fifo.Inv.writeDebt_le (h : x.Inv) : x.writeDebt ≤ 2 * x.capacity + 1 := by
  have hr := h.range
  have hd := Fifo.dist_eq_pos_sub hr (by simp [hr]) (by simp [hr]) h.ordered.wpub_le
  have hle := h.wptr_le
  have hb := Bool.toNat_le (x.wqb != x.wpub)
  rw [Fifo.writeDebt]
  omega

theorem Fifo.Inv.readDebt_le (h : x.Inv) : x.readDebt ≤ 2 * x.capacity + 1 := by
  have hr := h.range
  obtain ⟨hc, hlow, hhigh⟩ := h.calmHead_between
  have hd := Fifo.dist_eq_pos_sub hr hc (by simp [hr]) (h.ordered.rpub_le.trans hlow)
  have hle := h.wptr_le
  have hb := Bool.toNat_le (x.rqb != x.rpub)
  rw [Fifo.readDebt]
  omega

theorem Fifo.flushDebt_le (x : Fifo) : x.flushDebt ≤ 4 := by
  have hp := Bool.toNat_le x.flPend
  have ha := Bool.toNat_le (x.fa != x.flAck)
  rw [Fifo.flushDebt]
  split <;> omega

theorem Fifo.Inv.debt_le (h : x.Inv) : x.debt ≤ 4 * x.capacity + 6 := by
  have hw := h.writeDebt_le
  have hr := h.readDebt_le
  have hf := x.flushDebt_le
  rw [Fifo.debt]
  omega

theorem Fifo.Inv.debt_wPub (h : x.Inv) (hne : x.wpub ≠ x.lim) : x.wPub.debt < x.debt := by
  have hr := h.range
  have hlt := (h.wpub_lt_lim hne).trans_le h.ordered.lim_le
  have hd := dist_ptrSucc_right (aw := x.aw) (a := x.wptr) (b := x.wpub) (by simp [hr]) (by simp [hr])
    fun e => hlt.ne (congrArg x.pos e)
  have hb := Bool.toNat_le (x.wPub.wqb != x.wPub.wpub)
  have hw : x.wPub.writeDebt < x.writeDebt := by
    rw [Fifo.writeDebt, Fifo.writeDebt, Fifo.wPub_aw, Fifo.wPub_wptr, Fifo.wPub_wpub] at *
    omega
  exact Nat.add_lt_add_right (Nat.add_lt_add_right hw _) _

theorem Fifo.Inv.debt_rPub (h : x.Inv) (hne : x.rpub ≠ x.rhead) : x.rPub.debt < x.debt := by
  have hr := h.range
  obtain ⟨hc, hlow, -⟩ := h.calmHead_between
  have hlt := (h.rpub_lt_rhead hne).trans_le hlow
  have hd := dist_ptrSucc_right (aw := x.aw) hc (b := x.rpub) (by simp [hr]) fun e => hlt.ne (congrArg x.pos e)
  have hb := Bool.toNat_le (x.rPub.rqb != x.rPub.rpub)
  have hw : x.rPub.readDebt < x.readDebt := by
    have hh : x.rPub.calmHead = x.calmHead := rfl
    rw [Fifo.readDebt, Fifo.readDebt, hh, Fifo.rPub_aw, Fifo.rPub_rpub] at *
    omega
  exact Nat.add_lt_add_right (Nat.add_lt_add_left hw _) _

theorem Fifo.debt_syncR2W (hne : x.rqb ≠ x.rpub) : (x.syncR2W x.rpub.toNat).debt < x.debt := by
  have hw : (x.syncR2W x.rpub.toNat).readDebt < x.readDebt := by
    have hh : (x.syncR2W x.rpub.toNat).calmHead = x.calmHead := rfl
    have hb : (x.rqb != x.rpub) = true := bne_iff_ne.mpr hne
    simp [Fifo.readDebt, hh, hb, Fifo.syncR2W_rqb]
  exact Nat.add_lt_add_right (Nat.add_lt_add_left hw _) _

/-- Moves that end in the same place have the same read end to come. -/
theorem Fifo.calmHead_eq {y : Fifo} (h : y.calmed = x.calmed) : y.calmHead = x.calmHead := congrArg Fifo.rhead h

@[simp] theorem Fifo.advance_flAck (x : Fifo) : x.advance.flAck = x.flAck := by
  rcases x.advance_cases with ⟨-, e⟩ | ⟨-, e⟩ <;> rw [e]

@[simp] theorem Fifo.syncW2R_flAck (x : Fifo) (v : Nat) : (x.syncW2R v).flAck = x.flAck := by
  rcases x.syncW2R_cases v with ⟨-, e⟩ | ⟨-, e⟩ <;> simp [e]

@[simp] theorem Fifo.capture_flAck (x : Fifo) : x.capture.flAck = x.flReq := by
  rcases x.capture_cases with ⟨-, e⟩ | ⟨-, e⟩ <;> simp [e]

theorem Fifo.debt_syncW2R (hne : x.wqb ≠ x.wpub) : (x.syncW2R x.wpub.toNat).debt < x.debt := by
  have hw : (x.syncW2R x.wpub.toNat).writeDebt < x.writeDebt := by
    have hb : (x.wqb != x.wpub) = true := bne_iff_ne.mpr hne
    simp [Fifo.writeDebt, hb, Fifo.syncW2R_wqb]
  have hr : (x.syncW2R x.wpub.toNat).readDebt = x.readDebt := by
    simp [Fifo.readDebt, Fifo.rqb, Fifo.calmHead_eq (x.calmed_syncW2R _)]
  have hf : (x.syncW2R x.wpub.toNat).flushDebt = x.flushDebt := by simp [Fifo.flushDebt]
  rw [Fifo.debt, Fifo.debt, hr, hf]
  omega

theorem Fifo.debt_capture (hne : x.fr ≠ x.flReq) : x.capture.debt < x.debt := by
  have hw : x.capture.writeDebt = x.writeDebt := by simp [Fifo.writeDebt, Fifo.wqb]
  have hr : x.capture.readDebt = x.readDebt := by simp [Fifo.readDebt, Fifo.rqb, Fifo.calmHead_eq (Fifo.calmed_capture hne)]
  have hf : x.capture.flushDebt < x.flushDebt := by
    have hb := Bool.toNat_le (x.fa != x.flReq)
    simp only [Fifo.flushDebt, Fifo.capture_flPend, Fifo.capture_fr, Fifo.capture_flReq, Fifo.capture_fa,
      Fifo.capture_flAck, if_pos hne, ne_eq, not_true_eq_false, if_false]
    omega
  rw [Fifo.debt, Fifo.debt, hw, hr]
  omega

theorem Fifo.Inv.debt_ackSync (h : x.Inv) (hne : x.fa ≠ x.flAck) : x.ackSync.debt < x.debt := by
  have ho := h.ordered
  have hack : x.flReq = x.flAck := ho.phase.resolve_right hne
  have hfr : x.fr = x.flAck := ho.fr_eq
  have hw : x.ackSync.writeDebt = x.writeDebt := by simp [Fifo.writeDebt, Fifo.wqb]
  have hr : x.ackSync.readDebt = x.readDebt := by simp [Fifo.readDebt, Fifo.rqb, Fifo.calmHead_eq (Fifo.calmed_ackSync hfr)]
  have hf : x.ackSync.flushDebt < x.flushDebt := by
    have hb : (x.fa != x.flAck) = true := bne_iff_ne.mpr hne
    rcases x.ackSync_cases with ⟨-, hp, e⟩ | ⟨-, e⟩ <;> rw [e]
    · simp [Fifo.flushDebt, hp, hfr, hack, hb]
    · simp [Fifo.flushDebt, hfr, hack, hb]
  rw [Fifo.debt, Fifo.debt, hw, hr]
  omega

end

/-! ### The machine -/

/-- Something of the FIFO is still to be observed by the read end. -/
def Fifo.arming (x : Fifo) : Bool := x.wqb != x.wptr || x.fr != x.flReq || x.flPend

/-- A clear of `err_rx` is still to reach the SER domain. -/
def State.clearing (s : State) : Bool := s.ecReqQ != s.ecReq || s.ecPend

/-- The state that settling ends in. -/
def State.calmed (s : State) : State :=
  { s with
    txf := s.txf.calmed, rxf := s.rxf.calmed, armed := s.armed || s.txf.arming
    errRx := s.errRx && !s.clearing, errRxQ := s.errRx && !s.clearing
    ecReq := s.ecReq ^^ s.ecPend, ecPend := false, ecReqQ := s.ecReq ^^ s.ecPend, ecAck := s.ecReq ^^ s.ecPend
    ecAckQ := s.ecReq ^^ s.ecPend }

/-- Both FIFOs are settled, and the error latch and its clear are seen. -/
structure State.Calm (s : State) : Prop where
  fifo : ∀ f, (s.fifo f).Calm
  errRx : s.errRxQ = s.errRx
  ecReqQ : s.ecReqQ = s.ecReq
  ecAck : s.ecAck = s.ecReq
  ecAckQ : s.ecAckQ = s.ecReq
  ecPend : s.ecPend = false

section
variable {s : State} {k : InternalStep}

theorem State.calmed_calm (s : State) : s.calmed.Calm :=
  ⟨fun f => by cases f <;> exact Fifo.calmed_calm _, rfl, rfl, rfl, rfl, rfl⟩

theorem Fifo.Calm.arming_eq {x : Fifo} (h : x.Calm) : x.arming = false := by
  simp [Fifo.arming, h.wqb, h.fr, h.flPend]

/-- Settling leaves a settled state. -/
theorem State.Calm.calmed_eq (h : s.Calm) : s.calmed = s := by
  obtain ⟨hfifo, herr, hreqQ, hack, hackQ, hpend⟩ := h
  have htx := (hfifo .tx).calmed_eq
  have hrx := (hfifo .rx).calmed_eq
  have harm := (hfifo .tx).arming_eq
  simp only [State.fifo_tx, State.fifo_rx] at htx hrx harm
  cases s
  simp_all [State.calmed, State.clearing]

/-- In a settled state no internal step is enabled, under any draw (R97). -/
theorem State.Calm.not_enabled (h : s.Calm) (k : InternalStep) : s.internalEnabled k = false := by
  obtain ⟨hfifo, herr, hreqQ, hack, hackQ, hpend⟩ := h
  refine Bool.eq_false_iff.mpr fun hk => ?_
  cases k with
  | wPub f => exact State.internalEnabled_wPub_iff.mp hk ((hfifo f).wpub.trans (hfifo f).lim_eq.symm)
  | rPub f => exact State.internalEnabled_rPub_iff.mp hk (hfifo f).rpub
  | syncR2W f => exact (State.internalEnabled_syncR2W_iff.mp hk).1 ((hfifo f).rqb.trans (hfifo f).rpub.symm)
  | syncW2R f => exact (State.internalEnabled_syncW2R_iff.mp hk).1 ((hfifo f).wqb.trans (hfifo f).wpub.symm)
  | capture f => exact State.internalEnabled_capture_iff.mp hk (hfifo f).fr
  | ackSync f => exact State.internalEnabled_ackSync_iff.mp hk ((hfifo f).fa.trans (hfifo f).flAck.symm)
  | errRxSync => exact State.internalEnabled_errRxSync_iff.mp hk herr
  | ecReqSync => exact State.internalEnabled_ecReqSync_iff.mp hk hreqQ
  | ecAckSync => exact State.internalEnabled_ecAckSync_iff.mp hk (hackQ.trans hack.symm)

/-- In a held reset no internal step is enabled (R350). -/
theorem State.Inv.running_of_enabled (h : s.Inv) (hk : s.internalEnabled k = true) : s.inReset = false := by
  obtain ⟨-, -, -, -, hheld⟩ := h
  refine Bool.eq_false_iff.mpr fun hr => ?_
  rw [hheld hr] at hk
  have hreset : (s.resetTo s.rstAN s.rstSN).internalEnabled k = (State.ofConfig s.config).internalEnabled k := by
    cases k with
    | wPub f | rPub f | syncR2W f v | syncW2R f v | capture f | ackSync f => cases f <;> rfl
    | errRxSync | ecReqSync | ecAckSync => rfl
  rw [hreset, internalEnabled_ofConfig] at hk
  cases hk

@[simp] theorem isResetEvent_internal (k : InternalStep) : isResetEvent (.internal k) = false :=
  Bool.eq_false_iff.mpr fun h => by
    obtain ⟨a, b, e⟩ := isResetEvent_iff.mp h
    cases e

theorem State.Inv.internalEffect (h : s.Inv) (hk : s.internalEnabled k = true) : (s.internalEffect k).Inv :=
  h.transition (h.running_of_enabled hk) (isResetEvent_internal k) (.internal hk)

/-! ### No internal step of the machine changes where settling ends -/

theorem State.calmed_setFifo {f : FifoId} {y : Fifo} (hc : y.calmed = (s.fifo f).calmed)
    (ha : y.arming = (s.fifo f).arming) : (s.setFifo f y).calmed = s.calmed := by
  cases f with
  | tx =>
    simp only [State.calmed, State.clearing, State.setFifo, hc, ha]
    rfl
  | rx =>
    simp only [State.calmed, State.clearing, State.setFifo, hc]
    rfl

/-- A step that observes TXF arms, as settling would. -/
theorem State.calmed_observe {f : FifoId} {y : Fifo} (hc : y.calmed = (s.fifo f).calmed)
    (ha : (s.fifo f).arming = true) : ((s.setFifo f y).armIfTx f).calmed = s.calmed := by
  cases f with
  | tx =>
    have ha : s.txf.arming = true := ha
    simp only [State.calmed, State.clearing, State.setFifo, State.armIfTx, hc, ha, Bool.or_true, Bool.true_or]
    rfl
  | rx =>
    simp only [State.calmed, State.clearing, State.setFifo, State.armIfTx, hc]
    rfl

section
variable {x : Fifo}

theorem Fifo.Inv.arming_of_unseen (h : x.Inv) (hne : x.wqb ≠ x.wpub) : x.arming = true := by
  have hr := h.range
  have ho := h.ordered
  have hlt : x.pos x.wqb < x.pos x.wpub :=
    Nat.lt_of_le_of_ne ho.wqb_le fun e => hne (Fifo.eq_of_pos_eq hr hr.wqb (by simp [hr]) e)
  have hne : x.wqb ≠ x.wptr := fun e => (hlt.trans_le ho.wpub_le).ne (congrArg x.pos e)
  simp [Fifo.arming, hne]

theorem Fifo.arming_of_uncaptured (hne : x.fr ≠ x.flReq) : x.arming = true := by simp [Fifo.arming, hne]

theorem Fifo.arming_ackSync (hfr : x.fr = x.flAck) : x.ackSync.arming = x.arming := by
  rcases x.ackSync_cases with ⟨hq, hp, e⟩ | ⟨-, e⟩ <;> rw [e]
  · simp [Fifo.arming, hp, hfr.trans hq]
  · rfl

end

theorem State.calmed_errRxSync (s : State) : s.errRxSync.calmed = s.calmed := rfl

theorem State.calmed_ecReqSync (hne : s.ecReqQ ≠ s.ecReq) : s.ecReqSync.calmed = s.calmed := by
  simp [State.calmed, State.clearing, State.ecReqSync, hne]

theorem State.calmed_ecAckSync (hq : s.ecReqQ = s.ecAck) : s.ecAckSync.calmed = s.calmed := by
  rcases s.ecAckSync_cases with ⟨hack, hp, e⟩ | ⟨-, e⟩ <;> rw [e]
  · simp [State.calmed, State.clearing, hp, hq.trans hack]
  · rfl

/-- No enabled internal step, under any draw, changes where settling ends. -/
theorem State.Inv.calmed_internalEffect (h : s.Inv) (hk : s.internalEnabled k = true) :
    (s.internalEffect k).calmed = s.calmed := by
  cases k with
  | wPub f => exact State.calmed_setFifo (Fifo.calmed_wPub _) rfl
  | rPub f => exact State.calmed_setFifo (Fifo.calmed_rPub _) rfl
  | syncR2W f v => exact State.calmed_setFifo (Fifo.calmed_syncR2W _ v) rfl
  | syncW2R f v =>
    exact State.calmed_observe (Fifo.calmed_syncW2R _ v)
      ((h.fifo f).arming_of_unseen (State.internalEnabled_syncW2R_iff.mp hk).1)
  | capture f =>
    have hne := State.internalEnabled_capture_iff.mp hk
    exact State.calmed_observe (Fifo.calmed_capture hne) (Fifo.arming_of_uncaptured hne)
  | ackSync f =>
    have hfr := (h.fifo f).ordered.fr_eq
    exact State.calmed_setFifo (Fifo.calmed_ackSync hfr) (Fifo.arming_ackSync hfr)
  | errRxSync => exact s.calmed_errRxSync
  | ecReqSync => exact State.calmed_ecReqSync (State.internalEnabled_ecReqSync_iff.mp hk)
  | ecAckSync =>
    obtain ⟨-, -, ⟨hq, -⟩, -⟩ := h
    exact State.calmed_ecAckSync hq

/-! ### A catch-up step of the machine comes nearer -/

/-- What the error latch and its clear still owe. -/
def State.errDebt (s : State) : Nat :=
  2 * (2 * s.ecPend.toNat + (if s.ecReqQ ≠ s.ecReq then 2 else (s.ecAckQ != s.ecAck).toNat)) +
    (s.errRxQ != s.errRx).toNat

def State.debt (s : State) : Nat := s.txf.debt + s.rxf.debt + s.errDebt

theorem State.Inv.debt_le (h : s.Inv) : s.debt ≤ s.settleBound := by
  obtain ⟨htx, hrx, -⟩ := h
  have h1 := htx.debt_le
  have h2 := hrx.debt_le
  have h3 : s.errDebt ≤ 9 := by
    have hp := Bool.toNat_le s.ecPend
    have ha := Bool.toNat_le (s.ecAckQ != s.ecAck)
    have he := Bool.toNat_le (s.errRxQ != s.errRx)
    rw [State.errDebt]
    split <;> omega
  rw [State.debt, State.settleBound]
  omega

theorem State.debt_setFifo {f : FifoId} {y : Fifo} (h : y.debt < (s.fifo f).debt) : (s.setFifo f y).debt < s.debt := by
  cases f with
  | tx => exact Nat.add_lt_add_right (Nat.add_lt_add_right h _) _
  | rx => exact Nat.add_lt_add_right (Nat.add_lt_add_left h _) _

theorem State.debt_observe {f : FifoId} {y : Fifo} (h : y.debt < (s.fifo f).debt) :
    ((s.setFifo f y).armIfTx f).debt < s.debt := by
  cases f with
  | tx => exact State.debt_setFifo (s := s) (f := .tx) h
  | rx => exact State.debt_setFifo (s := s) (f := .rx) h

theorem State.debt_errRxSync (hne : s.errRxQ ≠ s.errRx) : s.errRxSync.debt < s.debt := by
  have hb : (s.errRxQ != s.errRx) = true := bne_iff_ne.mpr hne
  refine Nat.add_lt_add_left (Nat.add_lt_add_left ?_ _) _
  simp [State.errRxSync, hb]

theorem State.debt_ecReqSync (hne : s.ecReqQ ≠ s.ecReq) : s.ecReqSync.debt < s.debt := by
  refine Nat.add_lt_add_left ?_ _
  have ha := Bool.toNat_le (s.ecAckQ != s.ecReq)
  have he := Bool.toNat_le s.errRxQ
  simp only [State.errDebt, State.ecReqSync, if_pos hne, ne_eq, not_true_eq_false, if_false, Bool.bne_false]
  omega

theorem State.Inv.debt_ecAckSync (h : s.Inv) (hne : s.ecAckQ ≠ s.ecAck) : s.ecAckSync.debt < s.debt := by
  obtain ⟨-, -, ⟨hq, hp, -⟩, -⟩ := h
  have hreq : s.ecReq = s.ecAck := hp.resolve_right hne
  have hb : (s.ecAckQ != s.ecAck) = true := bne_iff_ne.mpr hne
  rcases s.ecAckSync_cases with ⟨-, hpend, e⟩ | ⟨-, e⟩ <;> rw [e] <;> refine Nat.add_lt_add_left ?_ _
  · simp [State.errDebt, hq, hreq, hpend, hb]
  · simp [State.errDebt, hq, hreq, hb]

/-- Every catch-up step that is enabled pays some of the debt. -/
theorem State.Inv.debt_internalEffect (h : s.Inv) (hc : k ∈ s.catchUpSteps) (hk : s.internalEnabled k = true) :
    (s.internalEffect k).debt < s.debt := by
  cases k with
  | wPub f => exact State.debt_setFifo ((h.fifo f).debt_wPub (State.internalEnabled_wPub_iff.mp hk))
  | rPub f => exact State.debt_setFifo ((h.fifo f).debt_rPub (State.internalEnabled_rPub_iff.mp hk))
  | syncR2W f v =>
    have hv : v = (s.fifo f).rpub.toNat := by cases f <;> simpa [State.catchUpSteps] using hc
    subst hv
    exact State.debt_setFifo (Fifo.debt_syncR2W (State.internalEnabled_syncR2W_iff.mp hk).1)
  | syncW2R f v =>
    have hv : v = (s.fifo f).wpub.toNat := by cases f <;> simpa [State.catchUpSteps] using hc
    subst hv
    exact State.debt_observe (Fifo.debt_syncW2R (State.internalEnabled_syncW2R_iff.mp hk).1)
  | capture f => exact State.debt_observe (Fifo.debt_capture (State.internalEnabled_capture_iff.mp hk))
  | ackSync f => exact State.debt_setFifo ((h.fifo f).debt_ackSync (State.internalEnabled_ackSync_iff.mp hk))
  | errRxSync => exact State.debt_errRxSync (State.internalEnabled_errRxSync_iff.mp hk)
  | ecReqSync => exact State.debt_ecReqSync (State.internalEnabled_ecReqSync_iff.mp hk)
  | ecAckSync => exact h.debt_ecAckSync (State.internalEnabled_ecAckSync_iff.mp hk)

/-! ### Settling -/

/-- A state of the invariant with no catch-up step enabled is settled in every register. -/
theorem State.Inv.calm (h : s.Inv) (hnone : ∀ k ∈ s.catchUpSteps, s.internalEnabled k = false) : s.Calm := by
  have off (k : InternalStep) (hk : k ∈ s.catchUpSteps) {p : Prop} [Decidable p] (hp : ¬ p → s.internalEnabled k = true) :
      p := Decidable.by_contra fun hn => absurd ((hnone k hk).symm.trans (hp hn)) Bool.false_ne_true
  obtain ⟨-, -, ⟨hq, -, hpend⟩, -⟩ := id h
  have hreqQ : s.ecReqQ = s.ecReq := off .ecReqSync (by simp [State.catchUpSteps]) State.internalEnabled_ecReqSync_iff.mpr
  have hackQ : s.ecAckQ = s.ecAck := off .ecAckSync (by simp [State.catchUpSteps]) State.internalEnabled_ecAckSync_iff.mpr
  have hack : s.ecAck = s.ecReq := hq.symm.trans hreqQ
  refine ⟨fun f => ?_, off .errRxSync (by simp [State.catchUpSteps]) State.internalEnabled_errRxSync_iff.mpr, hreqQ, hack,
    hackQ.trans hack, Bool.eq_false_iff.mpr fun hp => hpend hp (hack.symm.trans hackQ.symm)⟩
  have hr := (h.fifo f).range
  refine (h.fifo f).calm ?_ ?_ ?_ ?_ ?_ ?_
  · exact off (.wPub f) (by cases f <;> simp [State.catchUpSteps]) State.internalEnabled_wPub_iff.mpr
  · exact off (.rPub f) (by cases f <;> simp [State.catchUpSteps]) State.internalEnabled_rPub_iff.mpr
  · exact off (.syncR2W f (s.fifo f).rpub.toNat) (by cases f <;> simp [State.catchUpSteps]) fun hne =>
      State.internalEnabled_syncR2W_iff.mpr ⟨hne, drawAdmitted_source hr.rqb (by simp [hr]) hne⟩
  · exact off (.syncW2R f (s.fifo f).wpub.toNat) (by cases f <;> simp [State.catchUpSteps]) fun hne =>
      State.internalEnabled_syncW2R_iff.mpr ⟨hne, drawAdmitted_source hr.wqb (by simp [hr]) hne⟩
  · exact off (.capture f) (by cases f <;> simp [State.catchUpSteps]) State.internalEnabled_capture_iff.mpr
  · exact off (.ackSync f) (by cases f <;> simp [State.catchUpSteps]) State.internalEnabled_ackSync_iff.mpr

theorem State.settleOnce_eq_none_iff : s.settleOnce = none ↔ ∀ k ∈ s.catchUpSteps, s.internalEnabled k = false := by
  rw [State.settleOnce]
  cases hf : s.catchUpSteps.find? fun k => s.internalEnabled k with
  | none => simpa using hf
  | some k =>
    refine iff_of_false nofun fun hnone => ?_
    exact absurd ((hnone k (List.mem_of_find?_eq_some hf)).symm.trans (List.find?_some hf)) Bool.false_ne_true

theorem State.of_settleOnce {t : State} (h : s.settleOnce = some t) :
    ∃ k ∈ s.catchUpSteps, s.internalEnabled k = true ∧ t = s.internalEffect k := by
  rw [State.settleOnce] at h
  cases hf : s.catchUpSteps.find? fun k => s.internalEnabled k with
  | none =>
    rw [hf] at h
    cases h
  | some k =>
    rw [hf] at h
    exact ⟨k, List.mem_of_find?_eq_some hf, List.find?_some hf, (Option.some.inj h).symm⟩

/-- As many steps as there is debt end in the settled state. -/
theorem State.Inv.settleFor {n : Nat} (h : s.Inv) (hn : s.debt ≤ n) :
    settleFor n s = s.calmed ∧ s.calmed.Inv := by
  induction n generalizing s with
  | zero =>
    have hcalm : s.Calm := h.calm fun k hk => Bool.eq_false_iff.mpr fun he =>
      absurd ((h.debt_internalEffect hk he).trans_le hn) (Nat.not_lt_zero _)
    rw [hcalm.calmed_eq]
    exact ⟨rfl, h⟩
  | succ n ih =>
    rw [Machine.settleFor]
    cases ho : s.settleOnce with
    | none =>
      rw [(h.calm (State.settleOnce_eq_none_iff.mp ho)).calmed_eq]
      exact ⟨rfl, h⟩
    | some t =>
      obtain ⟨k, hc, hk, rfl⟩ := State.of_settleOnce ho
      rw [← h.calmed_internalEffect hk]
      exact ih (h.internalEffect hk) (Nat.le_of_lt_succ ((h.debt_internalEffect hc hk).trans_le hn))

theorem State.Inv.settle_eq (h : s.Inv) : s.settle = s.calmed := (h.settleFor h.debt_le).1

theorem State.Inv.calmed (h : s.Inv) : s.calmed.Inv := (h.settleFor h.debt_le).2

theorem State.Calm.settled (h : s.Calm) : s.settled = true := by
  simp [State.settled, h.not_enabled]

theorem State.Inv.calm_of_settled (h : s.Inv) (hs : s.settled = true) : s.Calm :=
  h.calm (by simpa [State.settled] using hs)

end

/-- Settles O48: settling ends in `calmed`, where nothing is enabled. -/
theorem settleReachesSettled : Obligations.SettleReachesSettled := by
  intro s h
  rw [h.settle_eq]
  refine ⟨s.calmed_calm.settled, h.calmed, s.calmed_calm.not_enabled, fun f => ⟨(s.calmed_calm.fifo f).drain, ?_,
    (s.calmed_calm.fifo f).rqb⟩⟩
  cases f <;> exact (s.calmed_calm.fifo _).wqb

/-- Settles O49: no enabled internal step changes where settling ends. -/
theorem settleOrderIndependent : Obligations.SettleOrderIndependent := by
  intro s k h _ hk
  rw [h.settle_eq, (h.internalEffect hk).settle_eq, h.calmed_internalEffect hk]

end Sys2Proof.Machine

/-! SUPPORT. Settled commands refine the abstract channel model (20_memory.md R96, R98). -/

namespace Sys2Proof.Machine

/-! ### Commands keep the invariant -/

section
variable {s t : State} {i : Instr}

theorem exec_external (h : exec i s = .next t) : t.external = s.external := by
  cases hp : i.port with
  | app => exact (exec_app_frame hp h).2.2.1
  | ser => exact (exec_ser_frame hp h).2.1

/-- A command disarms only where no byte is visible (R202). -/
theorem State.ArmedWhenVisible.exec (ha : s.ArmedWhenVisible) (h : exec i s = .next t) : t.ArmedWhenVisible := by
  intro hv
  obtain ⟨u, hu, harmed⟩ := exec_armed i s
  cases hu.symm.trans h
  rcases (fifoMove_of_exec (e := .dispatch) .tx h).visible hv with hx | ⟨_, e, -⟩ | ⟨e, -⟩
  · have hempty : s.txf.rempty = false := Fifo.rempty_eq_false_iff.mpr hx
    simp [harmed, ha hx, hempty]
  · cases e
  · cases e

theorem State.Inv.exec (h : s.Inv) (hr : s.inReset = false) (ht : exec i s = .next t) : t.Inv := by
  obtain ⟨htx, hrx, hec, harmed, -⟩ := h
  refine ⟨htx.move (fifoMove_of_exec (e := .dispatch) .tx ht), hrx.move (fifoMove_of_exec (e := .dispatch) .rx ht),
    hec.exec ht, harmed.exec ht, fun hr' => ?_⟩
  rw [State.inReset_congr (exec_external ht), hr] at hr'
  cases hr'

end

/-! ### A settled FIFO as a queue -/

section
variable {x : Fifo} (hc : x.Calm)
include hc

theorem Fifo.Calm.wcount_eq : x.wcount = x.contents.length := by
  rw [Fifo.wcount, hc.rqb, x.contents_length]

theorem Fifo.Calm.rcount_eq : x.rcount = x.contents.length := by
  rw [Fifo.rcount, hc.drain, hc.wqb, x.contents_length]
  rfl

theorem Fifo.Calm.rfull_eq : x.rfull = x.wfull := by
  rw [Fifo.rfull, Fifo.wfull, hc.rcount_eq, hc.wcount_eq]

theorem Fifo.Calm.calmHead_eq : x.calmHead = x.rhead := by
  simp [Fifo.calmHead, hc.flPend, hc.fr, hc.drain]

end

section
variable {x : Fifo}

/-- Where no flush is under way, settling leaves what the FIFO holds. -/
theorem Fifo.contents_calmed (h : x.calmHead = x.rhead) : x.calmed.contents = x.contents :=
  congrArg (fun p => x.segment p (dist x.aw x.wptr p)) h

/-- Where all is to be flushed, settling leaves an empty FIFO. -/
theorem Fifo.contents_calmed_of_flush (h : x.calmHead = x.wptr) : x.calmed.contents = [] := by
  have e : x.calmed.contents = x.segment x.calmHead (dist x.aw x.wptr x.calmHead) := rfl
  rw [e, h, dist_self]
  rfl

theorem Fifo.Calm.flushReq_eq (hc : x.Calm) : x.flushReq = { x with flMark := x.wptr, flReq := !x.flReq } :=
  Fifo.flushReq_of_eq hc.fa.symm

/-- After an overflow of a settled FIFO, settling empties it. -/
theorem Fifo.Calm.contents_flushReq (hc : x.Calm) : x.flushReq.calmed.contents = [] := by
  rw [hc.flushReq_eq]
  exact Fifo.contents_calmed_of_flush (by simp [Fifo.calmHead, hc.flPend, hc.fr])

theorem Fifo.Calm.arming_flushReq (hc : x.Calm) : x.flushReq.arming = true := by
  rw [hc.flushReq_eq]
  simp [Fifo.arming, hc.fr]

theorem Fifo.Calm.contents_push (hc : x.Calm) (h : x.Inv) (hf : x.wfull = false) (b : Byte) :
    (x.push b).calmed.contents = x.contents ++ [b] := by
  rw [Fifo.contents_calmed (x := x.push b) hc.calmHead_eq, h.push_contents hf]

theorem Fifo.Calm.arming_push (hc : x.Calm) (b : Byte) : (x.push b).arming = true := by
  have hne : x.wptr ≠ ptrSucc x.aw x.wptr := fun e => by
    have hd := dist_ptrSucc_self x.aw x.wptr
    rw [← e, dist_self] at hd
    cases hd
  have hb : (x.wqb != ptrSucc x.aw x.wptr) = true := bne_iff_ne.mpr (hc.wqb ▸ hne)
  exact congrArg (· || _ || _) hb

theorem Fifo.Inv.contents_pop (h : x.Inv) (hv : x.rempty = false) : x.contents = x.byteAt x.rhead :: x.pop.contents := by
  simpa using (FifoMove.pop hv : FifoMove .tx .dispatch x ..).contents h

theorem Fifo.Calm.calmHead_pop (hc : x.Calm) : x.pop.calmHead = x.pop.rhead := by
  simp [Fifo.calmHead, hc.flPend, hc.fr, hc.drain]

theorem Fifo.Calm.arming_pop (hc : x.Calm) : x.pop.arming = false := hc.arming_eq

/-- What ABS calls full is what the producer's view calls full. -/
theorem Fifo.Calm.length_eq_capacity_iff (hc : x.Calm) : x.contents.length = x.capacity ↔ x.wfull = true := by
  rw [Fifo.wfull_eq, hc.wcount_eq, decide_eq_true_iff]

theorem Fifo.Calm.contents_eq_nil (hc : x.Calm) (hv : x.rempty = true) : x.contents = [] :=
  List.eq_nil_of_length_eq_zero (hc.rcount_eq.symm.trans (Fifo.rempty_iff.mp hv))

end

/-! ### The state after a command and a settle, as ABS sees it -/

section
variable {s t : State}

theorem State.Inv.abs_settle (h : t.Inv) :
    t.settle.abs =
      { cTx := t.txf.capacity, cRx := t.rxf.capacity, txq := t.txf.calmed.contents, rxq := t.rxf.calmed.contents
        txie := t.armed || t.txf.arming, err := t.errTx || (t.errRx && !t.clearing) } := by
  rw [h.settle_eq]
  rfl

theorem State.Inv.periph_settle (h : t.Inv) : t.settle.periph = t.periph := by
  rw [h.settle_eq]
  rfl

theorem State.Calm.clearing_eq (hc : s.Calm) : s.clearing = false := by
  simp [State.clearing, hc.ecReqQ, hc.ecPend]

/-- The settled state after `t` abstracts to `a`, component by component. -/
theorem State.Inv.abs_settle_eq (h : t.Inv) {a : Abs} (hcTx : t.txf.capacity = a.cTx) (hcRx : t.rxf.capacity = a.cRx)
    (htxq : t.txf.calmed.contents = a.txq) (hrxq : t.rxf.calmed.contents = a.rxq)
    (htxie : (t.armed || t.txf.arming) = a.txie) (herr : (t.errTx || (t.errRx && !t.clearing)) = a.err) :
    t.settle.abs = a := by
  rw [h.abs_settle, hcTx, hcRx, htxq, hrxq, htxie, herr]

section
variable (hc : s.Calm)
include hc

theorem State.Calm.tx : s.txf.Calm := hc.fifo .tx

theorem State.Calm.rx : s.rxf.Calm := hc.fifo .rx

theorem State.Calm.contents_tx : s.txf.calmed.contents = s.abs.txq := congrArg Fifo.contents hc.tx.calmed_eq

theorem State.Calm.contents_rx : s.rxf.calmed.contents = s.abs.rxq := congrArg Fifo.contents hc.rx.calmed_eq

theorem State.Calm.armed_eq : (s.armed || s.txf.arming) = s.abs.txie := by
  rw [hc.tx.arming_eq, Bool.or_false]
  rfl

theorem State.Calm.err_eq : (s.errTx || (s.errRx && !s.clearing)) = s.abs.err := by
  rw [hc.clearing_eq, Bool.not_false, Bool.and_true, ← hc.errRx]
  rfl

theorem State.Calm.tx_full (hf : s.txf.wfull = true) : s.abs.txq.length = s.abs.cTx :=
  hc.tx.length_eq_capacity_iff.mpr hf

theorem State.Calm.tx_not_full (hf : s.txf.wfull = false) : s.abs.txq.length ≠ s.abs.cTx := fun e =>
  Bool.false_ne_true (hf.symm.trans (hc.tx.length_eq_capacity_iff.mp e))

theorem State.Calm.rx_full (hf : s.rxf.wfull = true) : s.abs.rxq.length = s.abs.cRx :=
  hc.rx.length_eq_capacity_iff.mpr hf

theorem State.Calm.rx_not_full (hf : s.rxf.wfull = false) : s.abs.rxq.length ≠ s.abs.cRx := fun e =>
  Bool.false_ne_true (hf.symm.trans (hc.rx.length_eq_capacity_iff.mp e))

end

end

/-! ### The operations of ABS, by what the queues hold -/

section
variable {a : Abs} {b : Byte} {q : List Byte}

theorem Abs.txEnqueue_full (h : a.txq.length = a.cTx) (b : Byte) :
    a.txEnqueue b = (false, { a with txq := [], err := true, txie := true }) := if_pos h

theorem Abs.txEnqueue_not_full (h : a.txq.length ≠ a.cTx) (b : Byte) :
    a.txEnqueue b = (true, { a with txq := a.txq ++ [b], txie := true }) := if_neg h

theorem Abs.rxEnqueue_full (h : a.rxq.length = a.cRx) (b : Byte) :
    a.rxEnqueue b = (false, { a with rxq := [], err := true }) := if_pos h

theorem Abs.rxEnqueue_not_full (h : a.rxq.length ≠ a.cRx) (b : Byte) :
    a.rxEnqueue b = (true, { a with rxq := a.rxq ++ [b] }) := if_neg h

theorem Abs.txDequeue_nil (h : a.txq = []) : a.txDequeue = (none, { a with txie := false }) := by
  rw [Abs.txDequeue, h]

theorem Abs.txDequeue_cons (h : a.txq = b :: q) : a.txDequeue = (some b, { a with txq := q }) := by
  rw [Abs.txDequeue, h]

theorem Abs.rxDequeue_nil (h : a.rxq = []) : a.rxDequeue = (none, a) := by
  rw [Abs.rxDequeue, h]

theorem Abs.rxDequeue_cons (h : a.rxq = b :: q) : a.rxDequeue = (some b, { a with rxq := q }) := by
  rw [Abs.rxDequeue, h]

end

/-! ### The commands of ABS, by what its queues hold -/

section
variable {a : Abs} {q : List Byte} {c : Byte}

theorem Abs.command_aTxEnq_full (h : a.txq.length = a.cTx) (b : Byte) (p : Periph) :
    Abs.command (.aTxEnq b) a p = (.ok false, { a with txq := [], err := true, txie := true }, p) := by
  simp only [Abs.command, Abs.txEnqueue_full h]

theorem Abs.command_aTxEnq_not_full (h : a.txq.length ≠ a.cTx) (b : Byte) (p : Periph) :
    Abs.command (.aTxEnq b) a p = (.ok true, { a with txq := a.txq ++ [b], txie := true }, p) := by
  simp only [Abs.command, Abs.txEnqueue_not_full h]

theorem Abs.command_sRxEnq_full (h : a.rxq.length = a.cRx) (b : Byte) (p : Periph) :
    Abs.command (.sRxEnq b) a p = (.ok false, { a with rxq := [], err := true }, p) := by
  simp only [Abs.command, Abs.rxEnqueue_full h]

theorem Abs.command_sRxEnq_not_full (h : a.rxq.length ≠ a.cRx) (b : Byte) (p : Periph) :
    Abs.command (.sRxEnq b) a p = (.ok true, { a with rxq := a.rxq ++ [b] }, p) := by
  simp only [Abs.command, Abs.rxEnqueue_not_full h]

theorem Abs.command_sTxDeq_nil (h : a.txq = []) (d : Byte) (p : Periph) :
    Abs.command (.sTxDeq d) a p = (.item none, { a with txie := false }, p) := by
  simp only [Abs.command, Abs.txDequeue_nil h]

theorem Abs.command_sTxDeq_cons (h : a.txq = c :: q) (d : Byte) (p : Periph) :
    Abs.command (.sTxDeq d) a p = (.item (some c), { a with txq := q }, p) := by
  simp only [Abs.command, Abs.txDequeue_cons h]

theorem Abs.command_aRxDeq_nil (h : a.rxq = []) (d : Byte) (p : Periph) :
    Abs.command (.aRxDeq d) a p = (.item none, a, p) := by
  simp only [Abs.command, Abs.rxDequeue_nil h]

theorem Abs.command_aRxDeq_cons (h : a.rxq = c :: q) (d : Byte) (p : Periph) :
    Abs.command (.aRxDeq d) a p = (.item (some c), { a with rxq := q }, p) := by
  simp only [Abs.command, Abs.rxDequeue_cons h]

end

/-! ### Each command refines its operation -/

/-- A command refines its operation of ABS, where `t` is its next state. -/
abbrev Refines (i : Instr) (s t : State) : Prop :=
  (Abs.command i s.abs s.periph).1.returnedBy (t.rspOf i.port) = true ∧
    t.settle.abs = (Abs.command i s.abs s.periph).2.1 ∧ t.periph = (Abs.command i s.abs s.periph).2.2

section
variable {s t : State}

theorem refines_of {i : Instr} {r : AbsResult} {a : Abs} {p : Periph} (hcmd : Abs.command i s.abs s.periph = (r, a, p))
    (hr : r.returnedBy (t.rspOf i.port) = true) (ha : t.settle.abs = a) (hp : t.periph = p) : Refines i s t := by
  rw [Refines, hcmd]
  exact ⟨hr, ha, hp⟩

variable (h : s.Inv) (hr : s.inReset = false) (hc : s.Calm)
include h hr hc

theorem refines_aTxEnq (b : Byte) (ht : exec (.aTxEnq b) s = .next t) : Refines (.aTxEnq b) s t := by
  have hi := h.exec hr ht
  cases hf : s.txf.wfull with
  | false =>
    cases (exec_aTxEnq_accepts hf b).symm.trans ht
    refine refines_of (Abs.command_aTxEnq_not_full (hc.tx_not_full hf) b _) (beq_self_eq_true _) ?_ rfl
    exact hi.abs_settle_eq rfl rfl (hc.tx.contents_push (h.fifo .tx) hf b) hc.contents_rx
      ((congrArg _ (hc.tx.arming_push b)).trans (Bool.or_true _)) hc.err_eq
  | true =>
    cases (exec_aTxEnq_overflows hf b).symm.trans ht
    refine refines_of (Abs.command_aTxEnq_full (hc.tx_full hf) b _) (beq_self_eq_true _) ?_ rfl
    exact hi.abs_settle_eq (congrArg slotCount (congrArg Fin.val s.txf.flushReq_aw)) rfl hc.tx.contents_flushReq hc.contents_rx
      ((congrArg _ hc.tx.arming_flushReq).trans (Bool.or_true _)) rfl

theorem refines_sRxEnq (b : Byte) (ht : exec (.sRxEnq b) s = .next t) : Refines (.sRxEnq b) s t := by
  have hi := h.exec hr ht
  cases hf : s.rxf.wfull with
  | false =>
    cases (exec_sRxEnq_accepts hf b).symm.trans ht
    refine refines_of (Abs.command_sRxEnq_not_full (hc.rx_not_full hf) b _) (beq_self_eq_true _) ?_ rfl
    exact hi.abs_settle_eq rfl rfl hc.contents_tx (hc.rx.contents_push (h.fifo .rx) hf b) hc.armed_eq hc.err_eq
  | true =>
    cases (exec_sRxEnq_overflows hf b).symm.trans ht
    refine refines_of (Abs.command_sRxEnq_full (hc.rx_full hf) b _) (beq_self_eq_true _) ?_ rfl
    exact hi.abs_settle_eq rfl (congrArg slotCount (congrArg Fin.val s.rxf.flushReq_aw)) hc.contents_tx hc.rx.contents_flushReq
      hc.armed_eq (by simp [State.rspS, State.clearing, hc.ecReqQ, hc.ecPend])

theorem refines_aRxDeq (d : Byte) (ht : exec (.aRxDeq d) s = .next t) : Refines (.aRxDeq d) s t := by
  have hi := h.exec hr ht
  cases hv : s.rxf.rempty with
  | false =>
    cases (exec_aRxDeq_takes hv d).symm.trans ht
    refine refines_of (Abs.command_aRxDeq_cons ((h.fifo .rx).contents_pop hv) d _) (beq_self_eq_true _) ?_ rfl
    exact hi.abs_settle_eq rfl rfl hc.contents_tx (Fifo.contents_calmed hc.rx.calmHead_pop) hc.armed_eq hc.err_eq
  | true =>
    cases (exec_aRxDeq_absent hv d).symm.trans ht
    refine refines_of (Abs.command_aRxDeq_nil (hc.rx.contents_eq_nil hv) d _) (beq_self_eq_true _) ?_ rfl
    exact hi.abs_settle_eq rfl rfl hc.contents_tx hc.contents_rx hc.armed_eq hc.err_eq

theorem refines_sTxDeq (d : Byte) (ht : exec (.sTxDeq d) s = .next t) : Refines (.sTxDeq d) s t := by
  have hi := h.exec hr ht
  cases hv : s.txf.rempty with
  | false =>
    cases (exec_sTxDeq_takes hv d).symm.trans ht
    refine refines_of (Abs.command_sTxDeq_cons ((h.fifo .tx).contents_pop hv) d _) (beq_self_eq_true _) ?_ rfl
    exact hi.abs_settle_eq rfl rfl (Fifo.contents_calmed hc.tx.calmHead_pop) hc.contents_rx hc.armed_eq hc.err_eq
  | true =>
    cases (exec_sTxDeq_absent hv d).symm.trans ht
    refine refines_of (Abs.command_sTxDeq_nil (hc.tx.contents_eq_nil hv) d _) (beq_self_eq_true _) ?_ rfl
    exact hi.abs_settle_eq rfl rfl hc.contents_tx hc.contents_rx hc.tx.arming_eq hc.err_eq

theorem refines_aErrClr (d : Byte) (ht : exec (.aErrClr d) s = .next t) : Refines (.aErrClr d) s t := by
  have hi := h.exec hr ht
  cases ht
  rcases State.requestErrClear_cases { s with errTx := false } with ⟨-, e⟩ | ⟨hne, -⟩
  · rw [e] at hi ⊢
    refine refines_of rfl (beq_self_eq_true _) ?_ rfl
    exact hi.abs_settle_eq rfl rfl hc.contents_tx hc.contents_rx hc.armed_eq
      (by simp [State.rspA, State.clearing, hc.ecReqQ, Abs.errClear])
  · exact absurd hc.ecAckQ.symm hne

/-- A command that only answers, on the APP port. -/
theorem refines_answerA {i : Instr} {r : AbsResult} {v : Count} {f0 f1 ill : Bool}
    (hcmd : Abs.command i s.abs s.periph = (r, s.abs, s.periph)) (hp : i.port = .app)
    (ht : exec i s = .next (s.rspA v f0 f1 ill)) (hans : r.returnedBy ⟨v, f0, f1, ill⟩ = true) :
    Refines i s (s.rspA v f0 f1 ill) := by
  refine refines_of hcmd (by rw [hp]; exact hans) ?_ rfl
  exact (h.exec hr ht).abs_settle_eq rfl rfl hc.contents_tx hc.contents_rx hc.armed_eq hc.err_eq

/-- A command that only answers, on the SER port. -/
theorem refines_answerS {i : Instr} {r : AbsResult} {v : Count} {f0 f1 ill : Bool}
    (hcmd : Abs.command i s.abs s.periph = (r, s.abs, s.periph)) (hp : i.port = .ser)
    (ht : exec i s = .next (s.rspS v f0 f1 ill)) (hans : r.returnedBy ⟨v, f0, f1, ill⟩ = true) :
    Refines i s (s.rspS v f0 f1 ill) := by
  refine refines_of hcmd (by rw [hp]; exact hans) ?_ rfl
  exact (h.exec hr ht).abs_settle_eq rfl rfl hc.contents_tx hc.contents_rx hc.armed_eq hc.err_eq

omit h hr in
/-- The full flag of a settled FIFO is that of ABS. -/
theorem State.Calm.wfull_eq : s.txf.wfull = (s.abs.txq.length == s.abs.cTx) := by
  rw [Fifo.wfull, hc.tx.wcount_eq]
  rfl

/-- The observers answer what ABS counts (R96). -/
theorem refines_observers (d : Byte) :
    Refines (.aTxCount d) s (s.rspA (countField s.txf.wcount) false false false) ∧
    Refines (.aTxFull d) s (s.rspA 0 s.txf.wfull false false) ∧
    Refines (.aRxCount d) s (s.rspA (countField s.rxf.rcount) false false false) ∧
    Refines (.aErrRead d) s (s.rspA s.errCause s.err false false) ∧
    Refines (.sTxCount d) s (s.rspS (countField s.txf.rcount) false false false) ∧
    Refines (.sTxFull d) s (s.rspS 0 s.txf.rfull false false) := by
  refine ⟨refines_answerA h hr hc rfl rfl rfl ?_, refines_answerA h hr hc rfl rfl rfl ?_,
    refines_answerA h hr hc rfl rfl rfl ?_, refines_answerA h hr hc rfl rfl rfl ?_,
    refines_answerS h hr hc rfl rfl rfl ?_, refines_answerS h hr hc rfl rfl rfl ?_⟩
  · rw [hc.tx.wcount_eq]
    exact beq_self_eq_true _
  · rw [hc.wfull_eq]
    exact beq_self_eq_true _
  · rw [hc.rx.rcount_eq]
    exact beq_self_eq_true _
  · simp [AbsResult.returnedBy, State.err, State.abs]
  · rw [hc.tx.rcount_eq]
    exact beq_self_eq_true _
  · rw [hc.tx.rfull_eq, hc.wfull_eq]
    exact beq_self_eq_true _

end

/-! ### `S_ISR` is `on_interrupt()` -/

section
variable {s t : State}

/-- Check 1 does nothing without the transmit condition. -/
theorem State.txChecked_of_not_txp (ht : s.txp = false) : s.takesTx = false ∧ s.txChecked = s := by
  simp [State.txChecked, State.takesTx, ht]

/-- Check 1 disarms where no byte is visible. -/
theorem State.txChecked_of_empty (ht : s.txp = true) (hv : s.txf.rempty = true) :
    s.takesTx = false ∧ s.txChecked = { s with armed := false } := by
  simp [State.txChecked, State.takesTx, ht, hv]

/-- Check 1 writes a visible byte to the peripheral. -/
theorem State.txChecked_of_visible (ht : s.txp = true) (hv : s.txf.rempty = false) :
    s.takesTx = true ∧ s.txChecked =
      { s with
        txf := s.txf.pop, periph := s.periph.writeData (s.txf.byteAt s.txf.rhead)
        strobes := { s.strobes with pWr := some (s.txf.byteAt s.txf.rhead) } } := by
  simp [State.txChecked, State.takesTx, ht, hv, Periph.writeData]

/-- Check 2 does nothing without the receive condition. -/
theorem State.rxChecked_of_not_rxp (hr : s.rxp = false) : s.rxChecked = s := by
  have hp : { s.periph with rxne := false } = s.periph := congrArg (fun r => { s.periph with rxne := r }) hr.symm
  simp [State.rxChecked, hr, hp]

theorem State.Calm.rempty_tx_iff (hc : s.Calm) : s.txf.rempty = true ↔ s.txf.contents = [] := by
  rw [Fifo.rempty_iff, hc.tx.rcount_eq, List.length_eq_zero_iff]

/-- Check 1 is `serveTx` (R96, R204). -/
theorem State.Calm.serveTx_eq (hc : s.Calm) (h : s.Inv) :
    s.abs.serveTx s.periph = (if s.takesTx then some (s.txf.byteAt s.txf.rhead) else none,
      { s.abs with txq := s.txChecked.txf.contents, txie := s.txChecked.armed }, s.txChecked.periph) := by
  rcases s.abs.serveTx_cases s.periph with ⟨hp, e⟩ | ⟨hp, hq, e⟩ | ⟨hp, b, q, hq, e⟩ <;> rw [e]
  · obtain ⟨ht, hs⟩ := State.txChecked_of_not_txp (s := s) hp
    rw [ht, hs]
    rfl
  · obtain ⟨ht, hs⟩ := State.txChecked_of_empty (s := s) hp (hc.rempty_tx_iff.mpr hq)
    rw [ht, hs]
    rfl
  · have hv : s.txf.rempty = false := Bool.eq_false_iff.mpr fun hv =>
      List.cons_ne_nil b q (hq.symm.trans (hc.rempty_tx_iff.mp hv))
    obtain ⟨ht, hs⟩ := State.txChecked_of_visible (s := s) hp hv
    obtain ⟨rfl, rfl⟩ := List.cons.inj (hq.symm.trans ((h.fifo .tx).contents_pop hv))
    rw [ht, hs]
    rfl

/-- Check 2 is `serveRx`, on any abstract state and peripheral that have the receive side of `s` (R96, R204). -/
theorem State.Calm.serveRx_eq (hc : s.Calm) (h : s.Inv) {a : Abs} {p : Periph} (hq : a.rxq = s.abs.rxq)
    (hcap : a.cRx = s.abs.cRx) (hne : p.rxne = s.periph.rxne) (hrdr : p.rdr = s.periph.rdr) :
    a.serveRx p = (if s.rxp then some s.periph.rdr else none,
      { a with rxq := s.rxChecked.rxf.calmed.contents, err := a.err || (s.rxp && s.rxf.wfull) },
      { p with rxne := false }) := by
  rcases a.serveRx_cases p with ⟨hp, e⟩ | ⟨hp, e⟩ <;> rw [e]
  · have hr : s.rxp = false := hne.symm.trans hp
    have hper : { p with rxne := false } = p := congrArg (fun r => { p with rxne := r }) hp.symm
    rw [State.rxChecked_of_not_rxp hr, hr, hc.contents_rx, ← hq, hper]
    simp
  · have hr : s.rxp = true := hne.symm.trans hp
    rw [hr, hrdr]
    cases hf : s.rxf.wfull with
    | false =>
      have hx : s.rxChecked.rxf = s.rxf.push s.periph.rdr := by simp [State.rxChecked, hr, hf]
      rw [Abs.rxEnqueue_not_full (by rw [hq, hcap]; exact hc.rx_not_full hf), hx, hc.rx.contents_push (h.fifo .rx) hf, hq]
      simp [Periph.clearRxne, State.abs, hrdr]
    | true =>
      have hx : s.rxChecked.rxf = s.rxf.flushReq := by simp [State.rxChecked, hr, hf]
      rw [Abs.rxEnqueue_full (by rw [hq, hcap]; exact hc.rx_full hf), hx, hc.rx.contents_flushReq]
      simp [Periph.clearRxne, hrdr]

/-- Where check 1 leaves TXF, no flush is under way and nothing is unseen. -/
theorem State.Calm.txChecked_txf (hc : s.Calm) :
    s.txChecked.txf.calmHead = s.txChecked.txf.rhead ∧ s.txChecked.txf.arming = false := by
  cases ht : s.takesTx with
  | false =>
    have e : s.txChecked.txf = s.txf := by simp [State.txChecked, ht]
    rw [e]
    exact ⟨hc.tx.calmHead_eq, hc.tx.arming_eq⟩
  | true =>
    have e : s.txChecked.txf = s.txf.pop := by simp [State.txChecked, ht]
    rw [e]
    exact ⟨hc.tx.calmHead_pop, hc.tx.arming_pop⟩

theorem Abs.command_sIsr (d : Byte) (a : Abs) (p : Periph) : Abs.command (.sIsr d) a p =
    (.served (a.serveTx p).1 ((a.serveTx p).2.1.serveRx (a.serveTx p).2.2).1,
      ((a.serveTx p).2.1.serveRx (a.serveTx p).2.2).2) := rfl

theorem refines_sIsr (h : s.Inv) (hr : s.inReset = false) (hc : s.Calm) (d : Byte) (ht : exec (.sIsr d) s = .next t) :
    Refines (.sIsr d) s t := by
  have hi := h.exec hr ht
  cases (exec_sIsr d s).symm.trans ht
  obtain ⟨hhead, harm⟩ := hc.txChecked_txf
  have hrx := hc.serveRx_eq h (a := { s.abs with txq := s.txChecked.txf.contents, txie := s.txChecked.armed })
    (p := s.txChecked.periph) rfl rfl rfl rfl
  have hcmd := Abs.command_sIsr d s.abs s.periph
  rw [hc.serveTx_eq h, hrx] at hcmd
  refine refines_of hcmd ?_ ?_ rfl
  · cases s.takesTx <;> cases s.rxp <;> exact beq_self_eq_true _
  · refine hi.abs_settle_eq (fifoMove_of_exec (e := .dispatch) .tx ht).capacity_eq
      (fifoMove_of_exec (e := .dispatch) .rx ht).capacity_eq (Fifo.contents_calmed hhead) rfl
      ((congrArg _ harm).trans (Bool.or_false _)) ?_
    have herr : s.abs.err = (s.errTx || s.errRx) := congrArg (s.errTx || ·) hc.errRx
    change (s.errTx || ((s.errRx || (s.rxp && s.rxf.wfull)) && !s.clearing)) = (s.abs.err || (s.rxp && s.rxf.wfull))
    rw [herr, hc.clearing_eq, Bool.not_false, Bool.and_true, Bool.or_assoc]

end

/-- Settles O50: command by command. -/
theorem settledCommandsRefineAbs : Obligations.SettledCommandsRefineAbs := by
  intro i s h hr hs
  have hc := h.calm_of_settled hs
  suffices hall : ∃ t, exec i s = .next t ∧ Refines i s t by
    obtain ⟨t, ht, hrsp, habs, hper⟩ := hall
    exact ⟨t, ht, hrsp, habs, (h.exec hr ht).periph_settle.trans hper⟩
  obtain ⟨t, ht⟩ := exec_completes i s
  obtain ⟨h1, h2, h3, h4, h5, h6⟩ := refines_observers h hr hc (byteOf i)
  cases i with
  | aTxEnq b => exact ⟨t, ht, refines_aTxEnq h hr hc b ht⟩
  | sRxEnq b => exact ⟨t, ht, refines_sRxEnq h hr hc b ht⟩
  | aRxDeq d => exact ⟨t, ht, refines_aRxDeq h hr hc d ht⟩
  | sTxDeq d => exact ⟨t, ht, refines_sTxDeq h hr hc d ht⟩
  | aErrClr d => exact ⟨t, ht, refines_aErrClr h hr hc d ht⟩
  | sIsr d => exact ⟨t, ht, refines_sIsr h hr hc d ht⟩
  | aTxCount d => exact ⟨_, rfl, h1⟩
  | aTxFull d => exact ⟨_, rfl, h2⟩
  | aRxCount d => exact ⟨_, rfl, h3⟩
  | aErrRead d => exact ⟨_, rfl, h4⟩
  | sTxCount d => exact ⟨_, rfl, h5⟩
  | sTxFull d => exact ⟨_, rfl, h6⟩
  | aNop _ | aReserved8 _ | aReserved9 _ | aReservedA _ | aReservedB _ | aReservedC _ | aReservedD _ | aReservedE _
  | aReservedF _ => exact ⟨_, rfl, refines_answerA h hr hc rfl rfl rfl (beq_self_eq_true _)⟩
  | sNop _ | sReserved6 _ | sReserved7 _ | sReserved8 _ | sReserved9 _ | sReservedA _ | sReservedB _ | sReservedC _
  | sReservedD _ | sReservedE _ | sReservedF _ =>
    exact ⟨_, rfl, refines_answerS h hr hc rfl rfl rfl (beq_self_eq_true _)⟩

end Sys2Proof.Machine

/-! SUPPORT. What runs of events reach (42_cdc_steps.md R262 to R266; 70_reset_and_hazards.md R354, R356): a queued byte
is sent, a received byte is queued, an enqueue keeps its room, a view catches up. -/

namespace Sys2Proof.Machine

/-! ### A turn of the dispatcher (R204, R211) -/

/-- The state after an `S_ISR`. -/
def State.served (s : State) : State :=
  s.txChecked.rxChecked.rspS ((if s.rxp then s.periph.rdr else 0) ++ (if s.takesTx then s.txf.byteAt s.txf.rhead else 0))
    s.takesTx s.rxp false

section
variable {s t : State} {b : Byte}

theorem stepEvent_dispatch (hr : s.inReset = false) (hm : s.serMode = .auto) (hirq : s.irq = true) :
    stepEvent .dispatch s = .next s.served :=
  stepEvent_of_transition hr (.dispatched (by rw [State.dispatchEnabled, hm, hirq]; rfl) (exec_sIsr 0 s))

theorem State.Inv.served (h : s.Inv) (hr : s.inReset = false) : s.served.Inv := h.exec hr (exec_sIsr 0 s)

/-- Where a byte is visible and the data register is empty, the turn sends the oldest byte. -/
theorem State.served_of_visible (ht : s.txp = true) (hv : s.txf.rempty = false) :
    s.served.txf = s.txf.pop ∧ s.served.armed = s.armed ∧
      s.served.periph = { s.periph.writeData (s.txf.byteAt s.txf.rhead) with rxne := false } ∧
      s.served.strobes.pWr = some (s.txf.byteAt s.txf.rhead) := by
  obtain ⟨-, e⟩ := State.txChecked_of_visible ht hv
  simp only [State.served, e]
  exact ⟨rfl, rfl, rfl, rfl⟩

/-- Where no byte is visible, the turn disarms. -/
theorem State.served_of_empty (ht : s.txp = true) (hv : s.txf.rempty = true) :
    s.served.armed = false ∧ s.served.periph = { s.periph with rxne := false } ∧
      s.served.strobes.pWr = s.strobes.pWr := by
  obtain ⟨-, e⟩ := State.txChecked_of_empty ht hv
  simp only [State.served, e]
  exact ⟨rfl, rfl, rfl⟩

/-- Where a byte is received and there is room, the turn queues it. -/
theorem State.served_of_received (hr : s.rxp = true) (hf : s.rxf.wfull = false) :
    s.served.rxf = s.rxf.push s.periph.rdr ∧ s.served.errRx = s.errRx := by
  have hrx : s.served.rxf = s.rxChecked.rxf := rfl
  have herr : s.served.errRx = (s.errRx || (s.rxp && s.rxf.wfull)) := rfl
  rw [hrx, herr]
  simp [State.rxChecked, hr, hf]

end

/-- Settles O54: a visible byte is armed, so the turn is enabled and takes it. -/
theorem visibleByteIsSent : Obligations.VisibleByteIsSent := by
  intro s h hr hm htxe hv
  obtain ⟨-, -, -, harmed, -⟩ := id h
  have ht : s.txp = true := by rw [State.txp, htxe, harmed hv]; rfl
  have hirq : s.irq = true := by rw [State.irq, ht]; rfl
  have hempty : s.txf.rempty = false := Fifo.rempty_eq_false_iff.mpr hv
  obtain ⟨htxf, -, hper, hwr⟩ := State.served_of_visible ht hempty
  refine ⟨hirq, s.served, _, stepEvent_dispatch hr hm hirq, ?_, hwr, ?_, ?_⟩
  · rw [htxf]
    exact (h.fifo .tx).contents_pop hempty
  · rw [hper]
    rfl
  · rw [hper]
    rfl

/-- Settles O52: the arriving byte raises the receive condition, and the turn reads and queues it. -/
theorem receivedByteIsQueued : Obligations.ReceivedByteIsQueued := by
  intro b s h hr hm hne hf
  let u : State := s.strobesDown.periphRxa b
  have hu : stepEvent (.periphRxa b) s.strobesDown = .next u := stepEvent_of_transition hr .periphRxa
  have hper : u.periph = { s.periph with lineIn := s.periph.lineIn ++ [b], rdr := b, rxne := true } := by
    simp [u, State.periphRxa, Periph.rxa, State.strobesDown, hne]
  have hrxp : u.strobesDown.rxp = true := congrArg Periph.rxne hper
  have hirq : u.strobesDown.irq = true := by rw [State.irq, hrxp, Bool.or_true]
  obtain ⟨hrxf, herr⟩ := State.served_of_received (s := u.strobesDown) hrxp hf
  have hrdr : u.strobesDown.periph.rdr = b := congrArg Periph.rdr hper
  refine ⟨u.strobesDown.served, ?_, ?_, rfl, congrArg Periph.lineIn hper, herr⟩
  · rw [runEvents_cons hu, runEvents_cons (stepEvent_dispatch (s := u.strobesDown) hr hm hirq)]
    rfl
  · rw [hrxf, hrdr]
    exact (h.fifo .rx).push_contents hf b

/-! ### A run of the SER domain and the peripheral (R356) -/

section
variable {s t : State} {es : List Event}

/-- Such a run leaves the APP registers, the reset inputs and the width of TXF. -/
theorem runEvents_ser_frame (hes : ∀ e ∈ es, agentOf e = .ser ∨ agentOf e = .peripheral)
    (hr : s.inReset = false) (ht : runEvents es s = .next t) :
    t.appOwned = s.appOwned ∧ t.inReset = false ∧ t.txf.aw = s.txf.aw := by
  induction es generalizing s with
  | nil =>
    cases ht
    exact ⟨rfl, hr, rfl⟩
  | cons e es ih =>
    obtain ⟨he, hes⟩ := List.forall_mem_cons.mp hes
    obtain ⟨u, hu, ht⟩ := runEvents_cons_inv ht
    have hne : isResetEvent e = false := by rcases he with h | h <;> rw [isResetEvent, h] <;> rfl
    have hru : u.inReset = false := (inReset_of_stepEvent hne hu).trans hr
    obtain ⟨hown, hrt, haw⟩ := ih hes hru ht
    refine ⟨hown.trans ?_, hrt, haw.trans (fifoMove_of_stepEvent .tx hne hu).aw_eq⟩
    rcases transition_of_stepEvent hne hu with ⟨hr', -⟩ | ⟨-, htr⟩
    · exact absurd (hr.symm.trans hr') Bool.false_ne_true
    · obtain ⟨-, hser, hper, -⟩ := htr.frame
      rcases he with h | h
      · exact hser h
      · exact (hper h).1

end

/-- An enqueue into room is accepted. -/
theorem stepEvent_aTxEnq_accepts {s : State} (hr : s.inReset = false) (hf : s.txf.wfull = false) (b : Byte) :
    stepEvent (.appCmd (encode (.aTxEnq b))) s = .next (State.rspA { s with txf := s.txf.push b } 0 true false false) := by
  have hd : decode .app (encode (.aTxEnq b)) = .aTxEnq b := decode_encode (.aTxEnq b)
  rw [stepEvent_appCmd hr, hd]
  exact exec_aTxEnq_accepts hf b

/-- Settles O53: the producer's view of TXF is made of APP registers. -/
theorem notFullSurvivesOtherDomain : Obligations.NotFullSurvivesOtherDomain := by
  intro es b s t hr hf hes ht
  obtain ⟨hown, hrt, haw⟩ := runEvents_ser_frame hes hr ht
  have hfull : t.txf.wfull = s.txf.wfull := Fifo.wfull_congr haw (congrArg AppOwned.txWrite hown)
  exact ⟨_, stepEvent_aTxEnq_accepts hrt (hfull.trans hf) b, rfl⟩

/-! ### `SEND_STR` (30_encoding.md R125) -/

section
variable {s : State}

theorem Fifo.Inv.wcount_push {x : Fifo} (h : x.Inv) (hf : x.wfull = false) (b : Byte) :
    (x.push b).wcount = x.wcount + 1 :=
  Fifo.pos_ptrSucc (x := x) h.range (by simp [h.range]) (h.wptr_lt hf)

/-- A run of enqueues into room appends the bytes. -/
theorem runEvents_sendBytes {bs : List Byte} (h : s.Inv) (hr : s.inReset = false)
    (hroom : s.txf.wcount + bs.length ≤ s.txf.capacity) :
    ∃ t, runEvents (present (sendBytes bs)) s = .next t ∧ t.txf.contents = s.txf.contents ++ bs ∧
      t.errTx = s.errTx ∧ t.rxf = s.rxf := by
  induction bs generalizing s with
  | nil => exact ⟨s, rfl, (List.append_nil _).symm, rfl, rfl⟩
  | cons b bs ih =>
    rw [List.length_cons] at hroom
    have hf : s.txf.wfull = false := beq_eq_false_iff_ne.mpr (by omega)
    let u : State := State.rspA { s.strobesDown with txf := s.txf.push b } 0 true false false
    have hu : stepEvent (.appCmd (encode (.aTxEnq b))) s.strobesDown = .next u :=
      stepEvent_aTxEnq_accepts (s := s.strobesDown) hr hf b
    have hcount : u.txf.wcount = s.txf.wcount + 1 := (h.fifo .tx).wcount_push hf b
    have hcap : u.txf.capacity = s.txf.capacity := rfl
    obtain ⟨t, ht, hcont, herr, hrxf⟩ := ih (h.strobesDown.stepEvent hu) hr (by omega)
    refine ⟨t, (runEvents_cons hu).trans ht, hcont.trans ?_, herr, hrxf⟩
    rw [List.append_cons]
    exact congrArg (· ++ bs) ((h.fifo .tx).push_contents hf b)

end

/-- Settles O56: `SEND_STR` is a run of enqueues. -/
theorem sendStrAppendsText : Obligations.SendStrAppendsText := fun _ _ h hr hroom => runEvents_sendBytes h hr hroom

/-! ### The transmit path (42_cdc_steps.md R266) -/

/-- The dispatcher and the peripheral are ready to send what TXF holds: all of it is visible. -/
structure State.Sending (s : State) : Prop where
  inv : s.Inv
  running : s.inReset = false
  auto : s.serMode = .auto
  armed : s.armed = true
  txe : s.periph.txe = true
  rxne : s.periph.rxne = false
  drain : s.txf.drain = false
  wqb : s.txf.wqb = s.txf.wptr

section
variable {s : State}

theorem State.Sending.txp (h : s.Sending) : s.strobesDown.txp = true := by
  change (s.periph.txe && s.armed) = true
  rw [h.txe, h.armed]
  rfl

theorem State.Sending.irq (h : s.Sending) : s.strobesDown.irq = true := by
  rw [State.irq, h.txp]
  rfl

theorem State.Sending.rempty_iff (h : s.Sending) : s.txf.rempty = true ↔ s.txf.contents = [] := by
  rw [Fifo.rempty_iff, Fifo.rcount, h.drain, h.wqb, ← List.length_eq_zero_iff, Fifo.contents_length]
  rfl

/-- One turn of the dispatcher and one of the peripheral put the oldest byte on the line. -/
theorem State.Sending.turn (h : s.Sending) {b : Byte} {q : List Byte} (hq : s.txf.contents = b :: q) :
    ∃ t, runEvents [.dispatch, .periphTxc] s = .next t ∧ t.Sending ∧ t.txf.contents = q ∧
      t.periph.lineOut = s.periph.lineOut ++ [b] := by
  have hv : s.txf.rempty = false := Bool.eq_false_iff.mpr fun hv =>
    List.cons_ne_nil b q (hq.symm.trans (h.rempty_iff.mp hv))
  obtain ⟨rfl, rfl⟩ := List.cons.inj (hq.symm.trans ((h.inv.fifo .tx).contents_pop hv))
  obtain ⟨htxf, harmed, hper, -⟩ := State.served_of_visible h.txp (s := s.strobesDown) hv
  let u : State := s.strobesDown.served
  have hu : stepEvent .dispatch s.strobesDown = .next u := stepEvent_dispatch h.running h.auto h.irq
  have hiu : u.Inv := h.inv.strobesDown.served h.running
  have ht : stepEvent .periphTxc u.strobesDown = .next u.strobesDown.periphTxc :=
    stepEvent_of_transition h.running .periphTxc
  have hper' : u.strobesDown.periphTxc.periph = u.periph.txc := rfl
  have hperu : u.periph.txc = { u.periph with lineOut := u.periph.lineOut ++ [u.periph.tdr], txe := true } := by
    rw [Periph.txc, if_neg (by rw [hper]; exact Bool.false_ne_true)]
  refine ⟨u.strobesDown.periphTxc, ?_, ⟨hiu.strobesDown.stepEvent ht, h.running, h.auto, harmed.trans h.armed, ?_, ?_, ?_, ?_⟩,
    ?_, ?_⟩
  · rw [runEvents_cons hu, runEvents_cons ht]
    rfl
  · rw [hper', hperu]
  · rw [hper', hperu, hper]
  · exact (congrArg Fifo.drain htxf).trans h.drain
  · exact (congrArg Fifo.wqb htxf).trans (h.wqb.trans (congrArg Fifo.wptr htxf).symm)
  · exact congrArg Fifo.contents htxf
  · rw [hper', hperu, hper]
    rfl

theorem runEvents_append {es fs : List Event} {t : State} (h : runEvents es s = .next t) :
    runEvents (es ++ fs) s = runEvents fs t := by
  induction es generalizing s with
  | nil =>
    cases h
    rfl
  | cons e es ih =>
    obtain ⟨u, hu, h⟩ := runEvents_cons_inv h
    exact (runEvents_cons hu).trans (ih h)

theorem State.Sending.drains (h : s.Sending) {q : List Byte} (hq : s.txf.contents = q) :
    ∃ t, runEvents (q.flatMap fun _ => [.dispatch, .periphTxc]) s = .next t ∧ t.Sending ∧ t.txf.contents = [] ∧
      t.periph.lineOut = s.periph.lineOut ++ q := by
  induction q generalizing s with
  | nil => exact ⟨s, rfl, h, hq, (List.append_nil _).symm⟩
  | cons b q ih =>
    obtain ⟨u, hu, hsu, hcu, hlu⟩ := h.turn hq
    obtain ⟨t, ht, hst, hct, hlt⟩ := ih hsu hcu
    refine ⟨t, ?_, hst, hct, ?_⟩
    · rw [List.flatMap_cons, runEvents_append hu, ht]
    · rw [hlt, hlu, List.append_assoc]
      rfl

end

/-- Settles O51: one turn for each byte, and one that finds none and disarms. -/
theorem transmitDrainsInOrder : Obligations.TransmitDrainsInOrder := by
  intro s h hr hs hm harmed htxe hrxne
  have hc := (h.calm_of_settled hs).tx
  have hsend : s.Sending := ⟨h, hr, hm, harmed, htxe, hrxne, hc.drain, hc.wqb⟩
  obtain ⟨t, ht, hst, hct, hlt⟩ := hsend.drains rfl
  obtain ⟨hoff, hper, hwr⟩ := State.served_of_empty hst.txp (s := t.strobesDown) (hst.rempty_iff.mpr hct)
  have hper : t.strobesDown.served.periph = t.periph := hper.trans (congrArg (fun r => { t.periph with rxne := r }) hst.rxne.symm)
  refine ⟨t, ht, hlt, hct, _, stepEvent_dispatch hst.running hst.auto hst.irq, hoff, ?_, hwr, hper⟩
  rw [State.irq, State.txp, State.rxp, hoff, hper, hst.rxne, Bool.and_false]
  rfl

/-! ### Views under weak fairness (42_cdc_steps.md R263) -/

/-- A quantity that never grows, and that goes down whenever it is not 0, reaches 0. -/
theorem exists_eq_zero_of_decreasing {p : Nat → Nat} {n : Nat} (hmono : ∀ k, n ≤ k → p (k + 1) ≤ p k)
    (hdown : ∀ m, n ≤ m → ∃ k, m ≤ k ∧ (p k = 0 ∨ p (k + 1) < p k)) : ∃ m, n ≤ m ∧ p m = 0 := by
  have hanti {m k : Nat} (hm : n ≤ m) (hk : m ≤ k) : p k ≤ p m :=
    Nat.le_induction le_rfl (fun j hj ih => (hmono j (hm.trans hj)).trans ih) k hk
  have hmain (d : Nat) : ∀ m, n ≤ m → p m ≤ d → ∃ m, n ≤ m ∧ p m = 0 := by
    induction d with
    | zero => exact fun m hm hd => ⟨m, hm, Nat.le_zero.mp hd⟩
    | succ d ih =>
      intro m hm hd
      obtain ⟨k, hk, h0 | hlt⟩ := hdown m hm
      · exact ⟨k, hm.trans hk, h0⟩
      · exact ih (k + 1) (by omega) (by have := hanti hm hk; omega)
  exact hmain (p n) n le_rfl le_rfl

/-- An admitted draw is nearer to the published pointer than the view was. -/
theorem dist_drawn_lt {aw : Fin 16} {v : Nat} {view pub : Ptr} (hview : inRange aw view = true)
    (hpub : inRange aw pub = true) (h : drawAdmitted aw v view pub = true) :
    dist aw pub (BitVec.ofNat 16 v) < dist aw pub view := by
  obtain ⟨k, hk, hle, e⟩ := eq_ptrAdd_of_drawAdmitted hview h
  obtain ⟨d, hd⟩ := Nat.exists_eq_add_of_le hle
  have hlt : dist aw pub view < ptrModulus aw := dist_lt ..
  have hp : pub = ptrAdd aw (BitVec.ofNat 16 v) d := by rw [e, ptrAdd_ptrAdd, ← hd, ptrAdd_dist hpub hview]
  have hd' : dist aw pub (BitVec.ofNat 16 v) = d := by
    rw [hp]
    exact dist_ptrAdd_of_lt _ (by omega)
  omega

section
variable {r : Nat → State} {sched : Nat → Event}

theorem IsRun.inv (hrun : IsRun r sched) (h0 : (r 0).Inv) (k : Nat) : (r k).Inv := by
  induction k with
  | zero => exact h0
  | succ k ih => exact ih.strobesDown.stepEvent (hrun k)

/-- A view of a FIFO and the published pointer that it views: the view moves by admitted draws only. -/
structure Fifo.View (view pub : Fifo → Ptr) : Prop where
  inRange {x : Fifo} (h : x.InRange) : inRange x.aw (view x) = true ∧ inRange x.aw (pub x) = true
  reset (aw : Fin 16) : view (Fifo.reset aw) = pub (Fifo.reset aw)
  move {f : FifoId} {e : Event} {x y : Fifo} {a b c : List Byte} (hm : FifoMove f e x a b c y) :
    view y = view x ∨ ∃ v, drawAdmitted x.aw v (view x) (pub x) = true ∧ view y = BitVec.ofNat 16 v

theorem Fifo.view_rqb : Fifo.View Fifo.rqb Fifo.rpub where
  inRange h := ⟨h.rqb, by simp [h]⟩
  reset aw := Fifo.reset_rqb aw
  move hm := hm.rqb_eq.imp_right fun ⟨v, _, hv, e⟩ => ⟨v, hv, e⟩

theorem Fifo.view_wqb : Fifo.View Fifo.wqb Fifo.wpub where
  inRange h := ⟨h.wqb, by simp [h]⟩
  reset aw := Fifo.reset_wqb aw
  move hm := hm.wqb_eq.imp_right fun ⟨v, _, hv, e⟩ => ⟨v, hv, e⟩

/-- How far a view lags behind the pointer that it views. -/
def Fifo.lag (view pub : Fifo → Ptr) (x : Fifo) : Nat := dist x.aw (pub x) (view x)

/-- A view that takes an admitted draw again and again reaches a published pointer that stands. -/
theorem Fifo.View.catches_up {view pub : Fifo → Ptr} (hview : Fifo.View view pub) (f : FifoId) {n : Nat}
    (h0 : (r 0).Inv) (hrun : IsRun r sched) (hstands : ∀ m, n ≤ m → pub ((r m).fifo f) = pub ((r n).fifo f))
    (hfair : ∀ m, ∃ k, m ≤ k ∧ (view ((r k).fifo f) = pub ((r k).fifo f) ∨
      ∃ v, drawAdmitted ((r k).fifo f).aw v (view ((r k).fifo f)) (pub ((r k).fifo f)) = true ∧
        view ((r (k + 1)).fifo f) = BitVec.ofNat 16 v ∧ ((r (k + 1)).fifo f).aw = ((r k).fifo f).aw)) :
    ∃ m, n ≤ m ∧ view ((r m).fifo f) = pub ((r m).fifo f) := by
  have hin (k : Nat) := hview.inRange ((hrun.inv h0 k).fifo f).range
  have hdraw {k v : Nat} (hk : n ≤ k) (hv : drawAdmitted ((r k).fifo f).aw v (view ((r k).fifo f)) (pub ((r k).fifo f)) = true)
      (e : view ((r (k + 1)).fifo f) = BitVec.ofNat 16 v) (haw : ((r (k + 1)).fifo f).aw = ((r k).fifo f).aw) :
      Fifo.lag view pub ((r (k + 1)).fifo f) <
        Fifo.lag view pub ((r k).fifo f) := by
    rw [Fifo.lag, haw, e, (hstands (k + 1) (by omega)).trans (hstands k hk).symm]
    exact dist_drawn_lt (hin k).1 (hin k).2 hv
  have hmono (k : Nat) (hk : n ≤ k) :
      Fifo.lag view pub ((r (k + 1)).fifo f) ≤ Fifo.lag view pub ((r k).fifo f) := by
    cases he : isResetEvent (sched k) with
    | true =>
      rcases fifo_of_reset f he (hrun k) with e | ⟨aw, e⟩
      · rw [e, State.strobesDown_fifo]
      · rw [e, Fifo.lag, hview.reset, dist_self]
        exact Nat.zero_le _
    | false =>
      have hmove := fifoMove_of_stepEvent f he (hrun k)
      rw [State.strobesDown_fifo] at hmove
      rcases hview.move hmove with e | ⟨v, hv, e⟩
      · rw [Fifo.lag, Fifo.lag, hmove.aw_eq, e, (hstands (k + 1) (by omega)).trans (hstands k hk).symm]
      · exact (hdraw hk hv e hmove.aw_eq).le
  obtain ⟨m, hm, hz⟩ := exists_eq_zero_of_decreasing (p := fun k => Fifo.lag view pub ((r k).fifo f)) hmono fun m hm => by
    obtain ⟨k, hk, e | ⟨v, hv, e, haw⟩⟩ := hfair m
    · exact ⟨k, hk, .inl ((congrArg (dist _ _) e).trans (dist_self _ _))⟩
    · exact ⟨k, hk, .inr (hdraw (hm.trans hk) hv e haw)⟩
  exact ⟨m, hm, ((dist_eq_zero_iff (hin m).2 (hin m).1).mp hz).symm⟩

/-- An internal step that is taken where it is enabled has its effect. -/
theorem IsRun.next_of_enabled (hrun : IsRun r sched) (h0 : (r 0).Inv) {k : Nat} {i : InternalStep}
    (he : sched k = .internal i) (hi : (r k).internalEnabled i = true) :
    r (k + 1) = (r k).strobesDown.internalEffect i := by
  have hr := (hrun.inv h0 k).running_of_enabled hi
  have hi' : (r k).strobesDown.internalEnabled i = true := by
    cases i with
    | wPub f | rPub f | syncR2W f v | syncW2R f v | capture f | ackSync f => cases f <;> exact hi
    | errRxSync | ecReqSync | ecAckSync => exact hi
  have hstep := hrun k
  rw [he, stepEvent_internal_of_enabled (s := (r k).strobesDown) hr hi'] at hstep
  injection hstep with e
  exact e.symm

end

/-- Settles O55: as long as a view lags, its synchroniser is enabled with the draw that catches up. -/
theorem viewsCatchUpUnderFairness : Obligations.ViewsCatchUpUnderFairness := by
  intro r sched f n h0 hrun
  refine ⟨fun hfair hstands => Fifo.view_rqb.catches_up f h0 hrun hstands fun m => ?_,
    fun hfair hstands => Fifo.view_wqb.catches_up f h0 hrun hstands fun m => ?_⟩
  · obtain ⟨k, hk, hoff | ⟨v, he, hen⟩⟩ := hfair m
    · have hr := ((hrun.inv h0 k).fifo f).range
      exact ⟨k, hk, .inl (by_contra fun hne => hoff ⟨_, State.internalEnabled_syncR2W_iff.mpr
        ⟨hne, drawAdmitted_source hr.rqb (by simp [hr]) hne⟩⟩)⟩
    · obtain ⟨-, hv⟩ := State.internalEnabled_syncR2W_iff.mp hen
      have hnext := hrun.next_of_enabled h0 he hen
      refine ⟨k, hk, .inr ⟨v, hv, ?_⟩⟩
      rw [hnext]
      simp [State.internalEffect, Fifo.syncR2W_rqb]
  · obtain ⟨k, hk, hoff | ⟨v, he, hen⟩⟩ := hfair m
    · have hr := ((hrun.inv h0 k).fifo f).range
      exact ⟨k, hk, .inl (by_contra fun hne => hoff ⟨_, State.internalEnabled_syncW2R_iff.mpr
        ⟨hne, drawAdmitted_source hr.wqb (by simp [hr]) hne⟩⟩)⟩
    · obtain ⟨-, hv⟩ := State.internalEnabled_syncW2R_iff.mp hen
      have hnext := hrun.next_of_enabled h0 he hen
      refine ⟨k, hk, .inr ⟨v, hv, ?_⟩⟩
      rw [hnext]
      simp [State.internalEffect, Fifo.syncW2R_wqb]

end Sys2Proof.Machine
